-- ==== Sys2Proof/Word.lean ====
section
/-! DEFINITION. The two bit-vector types of the engine: 32-bit words (R7) and bytes (R62). -/

namespace Sys2Proof

/-- An unsigned 32-bit word: every register, schedule word, round constant and command word (R7). -/
abbrev Word := BitVec 32

/-- One byte of the message buffer, of a padded block or of the digest (R8, R62). -/
abbrev Byte := BitVec 8

end Sys2Proof
end

