-- ==== Sys2Proof/Syntax.lean ====
section
/-! DEFINITION. The command set (R2, R91, R92): one constructor per row of the opcode table. Every operand
is implicit (R99, R100), so only the illegal-word row carries anything: the word itself, which CMD reads
back (R32). -/

namespace Sys2Proof

/-- A decoded command word (format C, R90). -/
inductive Instr where
  /-- NOP, OPC 0x0 (R233). -/
  | nop
  /-- INIT, OPC 0x1 (R128). -/
  | init
  /-- LOAD, OPC 0x2 (R152). -/
  | load
  /-- EXPAND, OPC 0x3 (R173). -/
  | expand
  /-- COMPRESS, OPC 0x4 (R195). -/
  | compress
  /-- FINALIZE, OPC 0x5 (R222). -/
  | finalize
  /-- ONE_SHOT, OPC 0x6 (R230). -/
  | oneShot
  /-- BLOCK, OPC 0x7 (R232). -/
  | block
  /-- The table's row "(illegal)": any other word, with RSV ≠ 0 or OPC ≥ 0x8 (R92, R234). -/
  | illegal (word : Word)
deriving DecidableEq, Repr

end Sys2Proof
end

