-- ==== Sys2Proof/WellFormed.lean ====
section
/-! DEFINITION. Which terms of `Instr` stand for a command word. -/

namespace Sys2Proof

/-- The eight commands are well formed; the illegal-word row is, when its word is none of the legal words,
which "are exactly 0x00000000..0x00000007" (R104). -/
def Instr.wellFormed : Instr → Bool
  | .nop => true
  | .init => true
  | .load => true
  | .expand => true
  | .compress => true
  | .finalize => true
  | .oneShot => true
  | .block => true
  | .illegal w => decide (8 ≤ w.toNat)

end Sys2Proof
end

