-- ==== Sys2Proof/Decode.lean ====
section
/-! DEFINITION. Command words: format C (R90), the opcode map (R91), the legality test (R92), the decoder,
total over all 2^32 words (R104), the encoder, and the listing form of a command word (R104). A command is
one 32-bit bus word and is never fetched from bytes, so it has no byte order (R70, R101). -/

namespace Sys2Proof

/-- Field OPC, bits 3:0 of a command word (R90). -/
def opcField (w : Word) : BitVec 4 := w.extractLsb' 0 4

/-- Field RSV, bits 31:4 of a command word (R90). -/
def rsvField (w : Word) : BitVec 28 := w.extractLsb' 4 28

/-- "A word is legal exactly when RSV = 0 and OPC is 0x0 to 0x7" (R91). -/
def legalWord (w : Word) : Bool := decide (rsvField w = 0) && decide ((opcField w).toNat ≤ 7)

/-- The opcode map of R91, on OPC as a number; an OPC it does not name gives nothing. -/
def opcodeMap : Nat → Option Instr
  | 0x0 => some .nop
  | 0x1 => some .init
  | 0x2 => some .load
  | 0x3 => some .expand
  | 0x4 => some .compress
  | 0x5 => some .finalize
  | 0x6 => some .oneShot
  | 0x7 => some .block
  | _ => none

/-- The engine's decoding, in the order of R105: the legality test, then the dispatch on OPC. A word that is
not legal is the illegal-word row of that word (R92). -/
def decode (w : Word) : Instr :=
  if legalWord w then (opcodeMap (opcField w).toNat).getD (.illegal w) else .illegal w

/-- The OPC of a command (R91). The illegal-word row has none of its own: its word's OPC field is given. -/
def Instr.opc : Instr → Nat
  | .nop => 0x0
  | .init => 0x1
  | .load => 0x2
  | .expand => 0x3
  | .compress => 0x4
  | .finalize => 0x5
  | .oneShot => 0x6
  | .block => 0x7
  | .illegal w => (opcField w).toNat

/-- The command word of a command: RSV = 0 and the command's OPC (R90, R91); an illegal word is itself. -/
def encode : Instr → Word
  | .illegal w => w
  | .nop => BitVec.ofNat 32 Instr.nop.opc
  | .init => BitVec.ofNat 32 Instr.init.opc
  | .load => BitVec.ofNat 32 Instr.load.opc
  | .expand => BitVec.ofNat 32 Instr.expand.opc
  | .compress => BitVec.ofNat 32 Instr.compress.opc
  | .finalize => BitVec.ofNat 32 Instr.finalize.opc
  | .oneShot => BitVec.ofNat 32 Instr.oneShot.opc
  | .block => BitVec.ofNat 32 Instr.block.opc

/-- The decoder on a word numbered as the opcode table numbers it. A command is one 32-bit word, so a number
that needs more than 32 bits, or a row of more than 32 bits, is no command word. -/
def decodeTableWord (nbits w : Nat) : Option Instr :=
  if nbits ≤ 32 ∧ w < 2 ^ 32 then some (decode (BitVec.ofNat 32 w)) else none

/-- The `n` low hexadecimal digits of a number, most significant first, with lower-case letters. -/
def hexDigits : Nat → Nat → List Char
  | 0, _ => []
  | n + 1, v => hexDigits n (v / 16) ++ [Nat.digitChar (v % 16)]

/-- The listing form of a command word (R104): its mnemonic when it is legal, and otherwise `.illegal` and the
word in 8 hexadecimal digits (lower-case letters: DESIGN CHOICE, log entry 9). -/
def Instr.listing : Instr → String
  | .nop => "NOP"
  | .init => "INIT"
  | .load => "LOAD"
  | .expand => "EXPAND"
  | .compress => "COMPRESS"
  | .finalize => "FINALIZE"
  | .oneShot => "ONE_SHOT"
  | .block => "BLOCK"
  | .illegal w => ".illegal 0x" ++ String.ofList (hexDigits 8 w.toNat)

end Sys2Proof
end

