-- ==== Sys2Proof/Config.lean ====
section
/-! DEFINITION. What the spec leaves to the implementation or to the platform, and the free values.
A free value is an opaque constant with no body: no proof can learn what it is. -/

namespace Sys2Proof.Config

/-- What a read of a register that the pending command may write returns while BUSY = 1 (R67, U1):
any word, a fresh draw per read. The argument is the number of the draw (`State.draws`). Log entry 3. -/
opaque freeWord : Nat → Word

/-- What a message byte that no host write has written holds (R81, R293, U2): any byte. The first
argument names the power-on (`State.powerOn`), the second is the byte's address. Log entry 4. -/
opaque powerOnByte : Nat → Nat → Byte

/-- The constraints on the parameter MSG_CAP (R10): a multiple of 4 from 4 to 2^31. -/
abbrev LegalMsgCap (cap : Nat) : Prop := cap % 4 = 0 ∧ 4 ≤ cap ∧ cap ≤ 2 ^ 31

/-- The MSG_CAP of the one state `State.reset`. DESIGN CHOICE, unsafe (log entry 1): R10 leaves it open, so
every statement speaks of all states, hence of all values of `State.msgCap`, and rests on none. -/
def resetMsgCap : Word := 4096

/-- Platform parameter REG_BASE (R60, OPEN): no rule depends on it. -/
opaque regBase : Nat

/-- Platform parameter MSG_BASE (R60, OPEN): no rule depends on it. -/
opaque msgBase : Nat

/-- Platform parameter IRQ_LINE (R266, OPEN): where the interrupt lands; no rule depends on it. -/
opaque irqLine : Nat

/-- Platform parameter ENGINES (R275, OPEN, at least 1) less one: how many further, independent engines the
platform holds. Each has its own state; no rule depends on the number. -/
opaque furtherEngines : Nat

end Sys2Proof.Config
end

