-- ==== Sys2Proof/Machine/Bus.lean ====
section
/-! DEFINITION. The types of the host's side: registers by name (R40), host primitives (R61, R62), bus transactions
(R102), the answers of reads, and the turns of the two agents (R20, R76). -/

namespace Sys2Proof.Machine

/-- A register of the REG map (R40), by name and index. -/
inductive Reg where
  | id
  | ctrl
  | cmd
  | status
  | lenLo
  | lenHi
  | blkidx
  | nblk
  | round
  | msgcap
  | h (k : Fin 8)
  | wv (k : Fin 8)
  | blk (k : Fin 16)
  | w (i : Fin 64)
  | k (i : Fin 64)
  | iv (k : Fin 8)
  | dig (k : Fin 8)
deriving DecidableEq, Repr

/-- The two host-visible address spaces (R60). -/
inductive Space where
  | reg
  | msg
deriving DecidableEq, Repr

/-- The direction of a bus transaction (R102). -/
inductive Dir where
  | write
  | read
deriving DecidableEq, Repr

/-- A bus transaction as R102 writes it: (W or R, REG or MSG, address, width, data). A read's data is ignored. -/
structure Txn where
  dir   : Dir
  space : Space
  addr  : Nat
  width : Nat
  data  : Word
deriving DecidableEq, Repr

/-- The host primitives: RegRead and RegWrite (R61), MsgWrite8, MsgRead8, MsgWrite32 and MsgRead32 (R62). -/
inductive HostOp where
  | regRead (off : Nat)
  | regWrite (off : Nat) (v : Word)
  | msgRead8 (a : Nat)
  | msgWrite8 (a : Nat) (v : Byte)
  | msgRead32 (a : Nat)
  | msgWrite32 (a : Nat) (v : Word)
deriving DecidableEq, Repr

/-- What a read primitive returns to the host: a u32 (RegRead, MsgRead32) or a u8 (MsgRead8). -/
inductive Answer where
  | u32 (v : Word)
  | u8 (v : Byte)
deriving DecidableEq, Repr

/-- Who moves next: the engine (R95), the host with one bus transaction (R72), or the platform's reset input
(R290). -/
inductive Turn where
  | engine
  | host (t : Txn)
  | reset
deriving DecidableEq, Repr

end Sys2Proof.Machine
end

