-- ==== Sys2Proof/Machine/ConstantTable.lean ====
section
/-! DEFINITION. The two read-only memories K and IV (R27, R28, R124, R125), the generator that defines them in
exact integer form (R120, R121), the primes it takes (R122) and the value of ID (R30). The generator has no hardware
counterpart (R127): the machine only reads the tables; the statements compare the two. -/

namespace Sys2Proof.Machine

/-- The rows of the table of R124, row j from 0: the prime p_(j+1) (R122, R123) and K[j]. -/
def romRowsK : List (Nat × Word) :=
  [(2, 0x428a2f98), (3, 0x71374491), (5, 0xb5c0fbcf), (7, 0xe9b5dba5),
   (11, 0x3956c25b), (13, 0x59f111f1), (17, 0x923f82a4), (19, 0xab1c5ed5),
   (23, 0xd807aa98), (29, 0x12835b01), (31, 0x243185be), (37, 0x550c7dc3),
   (41, 0x72be5d74), (43, 0x80deb1fe), (47, 0x9bdc06a7), (53, 0xc19bf174)] ++
  [(59, 0xe49b69c1), (61, 0xefbe4786), (67, 0x0fc19dc6), (71, 0x240ca1cc),
   (73, 0x2de92c6f), (79, 0x4a7484aa), (83, 0x5cb0a9dc), (89, 0x76f988da),
   (97, 0x983e5152), (101, 0xa831c66d), (103, 0xb00327c8), (107, 0xbf597fc7),
   (109, 0xc6e00bf3), (113, 0xd5a79147), (127, 0x06ca6351), (131, 0x14292967)] ++
  [(137, 0x27b70a85), (139, 0x2e1b2138), (149, 0x4d2c6dfc), (151, 0x53380d13),
   (157, 0x650a7354), (163, 0x766a0abb), (167, 0x81c2c92e), (173, 0x92722c85),
   (179, 0xa2bfe8a1), (181, 0xa81a664b), (191, 0xc24b8b70), (193, 0xc76c51a3),
   (197, 0xd192e819), (199, 0xd6990624), (211, 0xf40e3585), (223, 0x106aa070)] ++
  [(227, 0x19a4c116), (229, 0x1e376c08), (233, 0x2748774c), (239, 0x34b0bcb5),
   (241, 0x391c0cb3), (251, 0x4ed8aa4a), (257, 0x5b9cca4f), (263, 0x682e6ff3),
   (269, 0x748f82ee), (271, 0x78a5636f), (277, 0x84c87814), (281, 0x8cc70208),
   (283, 0x90befffa), (293, 0xa4506ceb), (307, 0xbef9a3f7), (311, 0xc67178f2)]

/-- The rows of the table of R125, row k from 0: the prime p_(k+1) and IV[k]. -/
def romRowsIV : List (Nat × Word) :=
  [(2, 0x6a09e667), (3, 0xbb67ae85), (5, 0x3c6ef372), (7, 0xa54ff53a),
   (11, 0x510e527f), (13, 0x9b05688c), (17, 0x1f83d9ab), (19, 0x5be0cd19)]

/-- The primes p_1..p_64 (R122), in increasing order: entry j is the prime that K[j] uses, and IV[j] for j < 8
(R123). -/
def primeTable : Vector Nat 64 := ⟨(romRowsK.map Prod.fst).toArray, rfl⟩

/-- ROM K: the 64 round constants (R124). -/
def roundConstants : Vector Word 64 := ⟨(romRowsK.map Prod.snd).toArray, rfl⟩

/-- ROM IV: the 8 initial hash values (R125). -/
def initialHash : Vector Word 8 := ⟨(romRowsIV.map Prod.snd).toArray, rfl⟩

/-- The largest y below `2 ^ bits` with y^k ≤ x, found bit by bit from the top; `y` is what the higher bits give. -/
def rootFrom (k x : Nat) : Nat → Nat → Nat
  | 0, y => y
  | bits + 1, y => rootFrom k x bits (if (y + 2 ^ bits) ^ k ≤ x then y + 2 ^ bits else y)

/-- icbrt(x) of R120 for x < 2^120: the largest integer y with y^3 ≤ x. -/
def icbrt (x : Nat) : Nat := rootFrom 3 x 40 0

/-- isqrt(x) of R121 for x < 2^80: the largest integer y with y^2 ≤ x. -/
def isqrt (x : Nat) : Nat := rootFrom 2 x 40 0

/-- The generator of the round constants, in the exact integer form of R120. -/
def generatedK : Vector Word 64 :=
  primeTable.map fun p => BitVec.ofNat 32 (icbrt (p * 2 ^ 96))

/-- The generator of the initial hash values, in the exact integer form of R121. -/
def generatedIV : Vector Word 8 :=
  Vector.ofFn fun k : Fin 8 => BitVec.ofNat 32 (isqrt (primeTable[k.val] * 2 ^ 64))

/-- What ID reads: the ASCII "S256" (R2, R30). -/
def idValue : Word := 0x53323536

end Sys2Proof.Machine
end

