-- ==== Sys2Proof/Machine/State.lean ====
section
/-! DEFINITION. The state of the engine (R20 to R45), what stops a step, and the state right after reset.
The constant registers ID, K and IV and the combinational NBLK and IRQ are computed from the state where they are
read (Operands.lean, Flags.lean), so they are stored nowhere twice. -/

namespace Sys2Proof.Machine

/-- The error codes 1 to 4 of R261, which `raise CommandError(code)` may name. Code 0 is the absence of one, and the
reserved codes 5..7, "never produced", cannot be written down (U8). -/
inductive CommandError where
  | lengthOverflow
  | lengthRange
  | blockRange
  | illegalCommand
deriving DecidableEq, Repr

/-- The message buffer: the written bytes with their addresses, addresses strictly rising. An address that is not
listed holds no written byte (R81), so every written byte is listed, and equal buffers are equal lists. -/
abbrev Memory := List Host.Cell

/-- Why the machine stops. -/
inductive Fault where
  /-- R271, U9: the engine finds STATUS.BUSY = 1 with no command word in PENDING, a state that R42 excludes. Raised
  by the engine's turn, in no state that meets `State.Inv`. Safe: the spec asks a model for this fault. -/
  | internalInvariant
deriving DecidableEq, Repr

/-- Why a step is turned away. -/
inductive Refusal where
  /-- An instruction with no meaning in this model; no arm of `exec` answers it. Safe. -/
  | notModelled (mnemonic : String)
  /-- The host's bus transaction is none of the primitives of R61 and R62, so "it cannot be expressed": a narrow or misaligned
  REG access (R61, U10), or, by the model's reading of R61 and R62 (DEDUCED, log entry 10), an offset past 0xFFC, a MSG width
  other than 8 or 32, a u8 that is not one. Raised by the host's turn. Safe: the spec asks a model's decoder to refuse what
  the interface does not have. -/
  | inexpressibleAccess
deriving DecidableEq, Repr

/-- The state: the spec's registers, hidden state and message buffer, and four fields of the model's own. -/
structure State where
  /-- CTRL.IE, bit 0 of CTRL; bits 31:1 read 0 (R31). -/
  ctrlIE  : Bool
  /-- CMD: the last command word accepted (R32). -/
  cmd     : Word
  /-- STATUS.BUSY, bit 0 (R33). -/
  busy    : Bool
  /-- STATUS.DONE, bit 1 (R33). -/
  done    : Bool
  /-- STATUS.ERR, bit 2 (R33). -/
  err     : Bool
  /-- STATUS.ERRCODE, bits 6:4 (R33, R261); `none` is code 0. -/
  errcode : Option CommandError
  /-- STATUS.WERR, bit 8 (R33, R264). -/
  werr    : Bool
  /-- STATUS.AERR, bit 9 (R33, R265). -/
  aerr    : Bool
  /-- LEN_LO (R34). -/
  lenLo   : Word
  /-- LEN_HI (R34). -/
  lenHi   : Word
  /-- BLKIDX (R36). -/
  blkidx  : Word
  /-- ROUND, bits 6:0; bits 31:7 read 0 (R38). -/
  round   : BitVec 7
  /-- MSGCAP: the parameter MSG_CAP, which no step changes (R10, R35). -/
  msgCap  : Word
  /-- H[0..7], the hash state (R23). -/
  h       : Vector Word 8
  /-- WV[0..7], the working variables a..h (R24). -/
  wv      : Vector Word 8
  /-- BLK[0..15], the block buffer (R25). -/
  blk     : Vector Word 16
  /-- W[0..63], the message schedule (R26). -/
  w       : Vector Word 64
  /-- DIG[0..7], the digest (R29). -/
  dig     : Vector Word 8
  /-- PENDING: the command word accepted and not yet completed (R42). -/
  pending : Option Word
  /-- MSG[0..MSG_CAP−1], the message buffer (R43, R62). -/
  msg     : Memory
  /-- The model's own: which power-on this is; it names what the unwritten message bytes hold (log entry 4). -/
  powerOn : Nat
  /-- The model's own: how many free words have been drawn (log entry 3). -/
  draws   : Nat
  /-- The model's own: the coming turns of host, engine and reset input, the next one first (log entry 2). -/
  agenda  : List Turn
  /-- The model's own: what the host's reads have returned, the newest first (log entry 5). -/
  answers : List Answer
deriving DecidableEq, Repr

/-- The state right after reset (R45, R290), with no host access and no message byte written yet. MSGCAP is the
parameter's value of log entry 1; the model's own four fields are empty or 0 (log entries 2 to 5). -/
def State.reset : State where
  ctrlIE  := false
  cmd     := 0
  busy    := false
  done    := false
  err     := false
  errcode := none
  werr    := false
  aerr    := false
  lenLo   := 0
  lenHi   := 0
  blkidx  := 0
  round   := 0
  msgCap  := Config.resetMsgCap
  h       := initialHash
  wv      := Vector.replicate 8 0
  blk     := Vector.replicate 16 0
  w       := Vector.replicate 64 0
  dig     := Vector.replicate 8 0
  pending := none
  msg     := []
  powerOn := 0
  draws   := 0
  agenda  := []
  answers := []

end Sys2Proof.Machine
end

