-- ==== Sys2Proof/Machine/Operands.lean ====
section
/-! DEFINITION. The operators of R13 and R15, the byte order (R14, R70), and the implicit operands of the commands
(R99): the length L, the block count N(L), and the byte views of BLK and DIG. -/

namespace Sys2Proof.Machine

/-- rotr(x, n) for 0 < n < 32 (R13). -/
def rotr (x : Word) (n : Nat) : Word := (x >>> n) ||| (x <<< (32 - n))

/-- ssig0 of R15. -/
def ssig0 (x : Word) : Word := rotr x 7 ^^^ rotr x 18 ^^^ (x >>> 3)

/-- ssig1 of R15. -/
def ssig1 (x : Word) : Word := rotr x 17 ^^^ rotr x 19 ^^^ (x >>> 10)

/-- bsig0 of R15. -/
def bsig0 (a : Word) : Word := rotr a 2 ^^^ rotr a 13 ^^^ rotr a 22

/-- bsig1 of R15. -/
def bsig1 (e : Word) : Word := rotr e 6 ^^^ rotr e 11 ^^^ rotr e 25

/-- ch of R15. -/
def ch (e f g : Word) : Word := (e &&& f) ^^^ (~~~e &&& g)

/-- maj of R15. -/
def maj (a b c : Word) : Word := (a &&& b) ^^^ (a &&& c) ^^^ (b &&& c)

/-- be32(b0, b1, b2, b3) = {b0, b1, b2, b3} (R14). -/
def be32 (b0 b1 b2 b3 : Byte) : Word := b0 ++ b1 ++ b2 ++ b3

/-- Byte n of a word in big-endian order: bits 31−8n down to 24−8n, for n = 0..3 (R25, R29, R220). -/
def wordByte (v : Word) (n : Nat) : Byte := v.extractLsb' (24 - 8 * n) 8

/-- Byte n of be64(v): the most significant byte is byte 0, for n = 0..7 (R14). -/
def be64Byte (v n : Nat) : Byte := BitVec.ofNat 8 (v / 2 ^ (8 * (7 - n)))

/-- be64(v), the 8 bytes of a u64, most significant first (R14). -/
def be64 (v : Nat) : List Byte := (List.range 8).map (be64Byte v)

/-- N(L), the number of padded blocks for length L (R147). -/
def blockCount (L : Nat) : Nat := (L + 8) / 64 + 1

/-- The message length L = {LEN_HI, LEN_LO} (R9, R34). -/
def State.len (s : State) : Nat := (s.lenHi ++ s.lenLo).toNat

/-- NBLK: N(L) mod 2^32 if L < 2^61, else 0 (R37). -/
def State.nblk (s : State) : Word := if s.len < 2 ^ 61 then BitVec.ofNat 32 (blockCount s.len) else 0

/-- Byte t of the block buffer, t = 0..63 (R25). -/
def State.blkByte (s : State) (t : Fin 64) : Byte := wordByte s.blk[t.val / 4] (t.val % 4)

/-- Byte m of the digest register, m = 0..31 (R29). -/
def State.digestByte (s : State) (m : Fin 32) : Byte := wordByte s.dig[m.val / 4] (m.val % 4)

end Sys2Proof.Machine
end

