-- ==== Sys2Proof/Machine/Flags.lean ====
section
/-! DEFINITION. The status flags (R33, R44): STATUS, CTRL and ROUND as words, the write-1-to-clear rule of STATUS, and
the interrupt output. No arithmetic flag exists (R13, R44). -/

namespace Sys2Proof.Machine

/-- The number of an error code (R261). -/
def CommandError.code : CommandError → BitVec 3
  | .lengthOverflow => 1
  | .lengthRange => 2
  | .blockRange => 3
  | .illegalCommand => 4

/-- Field ERRCODE: 0 when there is no error (R33, R261). -/
def State.errcodeField (s : State) : BitVec 3 := (s.errcode.map CommandError.code).getD 0

/-- STATUS as the host reads it (R33): reserved bits 3, 7 and 31:10 read 0. -/
def State.statusWord (s : State) : Word :=
  0#22 ++ BitVec.ofBool s.aerr ++ BitVec.ofBool s.werr ++ 0#1 ++ s.errcodeField ++ 0#1 ++ BitVec.ofBool s.err ++
    BitVec.ofBool s.done ++ BitVec.ofBool s.busy

/-- CTRL as the host reads it (R31). -/
def State.ctrlWord (s : State) : Word := 0#31 ++ BitVec.ofBool s.ctrlIE

/-- ROUND as the host reads it (R38). -/
def State.roundWord (s : State) : Word := 0#25 ++ s.round

/-- The interrupt output: IRQ = CTRL.IE and (STATUS.DONE or STATUS.ERR) (R41, R266). -/
def State.irq (s : State) : Bool := s.ctrlIE && (s.done || s.err)

/-- A host write of `v` to STATUS: the write-1-to-clear rule of R33. It is also the host's acknowledgement of a
completion (R269), the only return from an error that this hardware has. -/
def State.clearStatus (v : Word) (s : State) : State :=
  { s with
    done := s.done && !v.getLsbD 1
    err := s.err && !v.getLsbD 2
    errcode := if v.getLsbD 2 then none else s.errcode
    werr := s.werr && !v.getLsbD 8
    aerr := s.aerr && !v.getLsbD 9 }

end Sys2Proof.Machine
end

