-- ==== Sys2Proof/Machine/Ops.lean ====
section
/-! DEFINITION. The named operations over the message buffer and the registers, the life of a command (acceptance,
completion with success, completion with an error), and the checks that raise errors. -/

namespace Sys2Proof.Machine

/-- The canonical form of the message buffer: addresses strictly rising. A listed byte is a written one, and an
unlisted address reads as no written byte, so no entry repeats what an unlisted address reads as. -/
abbrev Memory.wf (m : Memory) : Prop := m.Pairwise fun x y => x.1 < y.1

/-- The written byte at an address, or none where no host write has gone (R81). -/
def Memory.read : Memory → Nat → Option Byte
  | [], _ => none
  | (b, x) :: m, a => if a = b then some x else Memory.read m a

/-- One byte written at an address. -/
def Memory.write : Memory → Nat → Byte → Memory
  | [], a, v => [(a, v)]
  | (b, x) :: m, a, v =>
    if a < b then (a, v) :: (b, x) :: m
    else if a = b then (a, v) :: m
    else (b, x) :: Memory.write m a v

/-- Four bytes written from an address on, the most significant first (R64). -/
@[irreducible] def Memory.writeWord (m : Memory) (a : Nat) (v : Word) : Memory :=
  Memory.write (Memory.write (Memory.write (Memory.write m a (wordByte v 0)) (a + 1) (wordByte v 1)) (a + 2)
    (wordByte v 2)) (a + 3) (wordByte v 3)

/-- `MSG[a]`: the byte last written there, or what the byte holds since power-on, a free value (R81, R293). -/
def State.msgByte (s : State) (a : Nat) : Byte := (Memory.read s.msg a).getD (Config.powerOnByte s.powerOn a)

/-- `MemRead(a, 4)`: four bytes, big-endian (R14, R64). -/
def State.msgWord (s : State) (a : Nat) : Word :=
  be32 (s.msgByte a) (s.msgByte (a + 1)) (s.msgByte (a + 2)) (s.msgByte (a + 3))

/-- `MemWrite(a, 1, v)` (R63). -/
def State.storeByte (a : Nat) (v : Byte) (s : State) : State := { s with msg := Memory.write s.msg a v }

/-- `MemWrite(a, 4, v)`: four bytes, big-endian (R64). -/
def State.storeWord (a : Nat) (v : Word) (s : State) : State := { s with msg := Memory.writeWord s.msg a v }

/-- Acceptance of a command word (R93): WERR and AERR are not changed. -/
def State.accept (v : Word) (s : State) : State :=
  { s with cmd := v, pending := some v, done := false, err := false, errcode := none, busy := true }

/-- The command word whose execution the engine step performs (R42, R95). -/
def State.fetch (s : State) : Option Word := s.pending

/-- Successful completion (R97): PENDING is no longer valid (R42). -/
def State.succeed (s : State) : State := { s with pending := none, busy := false, done := true }

/-- `raise CommandError(code)`: failed completion (R98, R262), the one way an error is taken. Nothing but STATUS
changes, no mode changes and no control is transferred (R260, R268). -/
def State.raiseError (c : CommandError) (s : State) : State :=
  { s with pending := none, busy := false, err := true, errcode := some c }

/-- A host write dropped because BUSY = 1 (R68, R94, R264). -/
def State.dropWrite (s : State) : State := { s with werr := true }

/-- A misaligned or out-of-range MSG access (R66, R265). -/
def State.badAccess (s : State) : State := { s with aerr := true }

/-- A read's value goes back to the host. -/
def State.answer (x : Answer) (s : State) : State := { s with answers := x :: s.answers }

/-- The checks on the length, in the order of R263: LENGTH_OVERFLOW (R146), then LENGTH_RANGE (R150). -/
def State.lengthError (s : State) : Option CommandError :=
  if 2 ^ 61 ≤ s.len then some .lengthOverflow
  else if s.msgCap.toNat < s.len then some .lengthRange
  else none

/-- The checks of LOAD and BLOCK, in the order of R263: the length, then BLOCK_RANGE (R151). -/
def State.blockError (s : State) : Option CommandError :=
  match s.lengthError with
  | some c => some c
  | none => if blockCount s.len ≤ s.blkidx.toNat then some .blockRange else none

/-- The platform's reset input (R290, R291): every register at its reset value; MSG (R293) and the parameter MSG_CAP
keep theirs. The model's own fields, which belong to the host and to the free values, go on. -/
def State.applyReset (s : State) : State :=
  { State.reset with
    msgCap := s.msgCap
    msg := s.msg
    powerOn := s.powerOn
    draws := s.draws
    agenda := s.agenda
    answers := s.answers }

end Sys2Proof.Machine
end

