-- ==== Sys2Proof/Machine/Compression.lean ====
section
/-! DEFINITION. The compression engine (R190 to R194) and COMPRESS (R195). -/

namespace Sys2Proof.Machine

/-- One round (R191) on the working variables a..h = v[0..7], with round constant `k` and schedule word `w`: every
right-hand side reads the values before the round. -/
def roundStep (v : Vector Word 8) (k w : Word) : Vector Word 8 :=
  let temp1 := v[7] + bsig1 v[4] + ch v[4] v[5] v[6] + k + w
  let temp2 := bsig0 v[0] + maj v[0] v[1] v[2]
  #v[temp1 + temp2, v[0], v[1], v[2], v[3] + temp1, v[4], v[5], v[6]]

/-- The working variables after the first n rounds (R190, R192): seeded from the hash state, round i uses K[i] and
W[i]. -/
def roundsUpTo (h : Vector Word 8) (w : Vector Word 64) : Nat → Vector Word 8
  | 0 => h
  | n + 1 =>
    let v := roundsUpTo h w n
    if hn : n < 64 then roundStep v roundConstants[n] w[n] else v

/-- The working variables after round 63: "exactly 64 rounds" (R192). -/
@[irreducible] def rounds64 (h : Vector Word 8) (w : Vector Word 64) : Vector Word 8 := roundsUpTo h w 64

/-- Element-wise addition modulo 2^32 (R193). -/
@[irreducible] def addWords (x y : Vector Word 8) : Vector Word 8 := Vector.ofFn fun k : Fin 8 => x[k] + y[k]

/-- The compression of the schedule W into H: seed, 64 rounds, WV <- a..h, H <- H + WV, ROUND <- 64 (R190 to R194). -/
def State.compressW (s : State) : State :=
  { s with wv := rounds64 s.h s.w, h := addWords s.h (rounds64 s.h s.w), round := 64 }

/-- COMPRESS (R195). -/
def execCompress (s : State) : Host.Outcome State Fault Refusal := .next s.compressW.succeed

end Sys2Proof.Machine
end

