-- ==== Sys2Proof/Machine/Digest.lean ====
section
/-! DEFINITION. The digest serializer (R220, R221) and FINALIZE (R222). -/

namespace Sys2Proof.Machine

/-- serialize(H): D[4k + n] is byte n of H[k], most significant first (R220). -/
def serialize (h : Vector Word 8) : Vector Byte 32 :=
  Vector.ofFn fun m : Fin 32 => wordByte h[m.val / 4] (m.val % 4)

/-- The digest bytes D[0], .., D[31] that DIG holds (R29, R221). -/
def State.digest (s : State) : Vector Byte 32 := Vector.ofFn s.digestByte

/-- The printed digest: each byte as two lower-case hexadecimal digits (R221). -/
def digestHex (d : Vector Byte 32) : String :=
  String.ofList (d.toList.flatMap fun b => [Nat.digitChar (b.toNat / 16), Nat.digitChar (b.toNat % 16)])

/-- `for k in 0..7: DIG[k] <- H[k]` (R222). -/
def State.serializeH (s : State) : State := { s with dig := s.h }

/-- FINALIZE (R222). -/
def execFinalize (s : State) : Host.Outcome State Fault Refusal := .next s.serializeH.succeed

end Sys2Proof.Machine
end

