-- ==== Sys2Proof/Machine/Init.lean ====
section
/-! DEFINITION. INIT: the hash state takes the initial hash values (R128). -/

namespace Sys2Proof.Machine

/-- `for k in 0..7: H[k] <- IV[k]` (R128). -/
def State.initHash (s : State) : State := { s with h := initialHash }

/-- INIT (R128). -/
def execInit (s : State) : Host.Outcome State Fault Refusal := .next s.initHash.succeed

end Sys2Proof.Machine
end

