-- ==== Sys2Proof/Machine/Padding.lean ====
section
/-! DEFINITION. The padding controller (R140 to R151) and LOAD (R152). -/

namespace Sys2Proof.Machine

/-- z, the number of zero bytes of the padding (R142). -/
def zeroFill (L : Nat) : Nat := (63 - (L + 8) % 64)

/-- pad(M), the document's padding of a whole message (R140, R141), for a message of fewer than 2^61 bytes. The hardware
never stores it whole; the statements compare the per-block form with it (R148). -/
def pad (m : List Byte) : List Byte :=
  m ++ [0x80] ++ List.replicate (zeroFill m.length) 0 ++ be64 (8 * m.length)

/-- pad with its guard (R146): none is the document's LengthOverflow. -/
def padGuarded (m : List Byte) : Option (List Byte) := if 2 ^ 61 ≤ m.length then none else some (pad m)

/-- F, the position in the padded message where the length field starts (R148). -/
def lengthFieldStart (L : Nat) : Nat := 64 * blockCount L - 8

/-- byte(t) of padblock(L, j), on the position q = 64·j + t (R148); `msg` gives the message bytes. -/
def padByte (msg : Nat → Byte) (L q : Nat) : Byte :=
  if q < L then msg q
  else if q = L then 0x80
  else if lengthFieldStart L ≤ q then be64Byte (8 * L) (q - lengthFieldStart L)
  else 0x00

/-- padblock(L, j) packed big-endian into 16 words (R148, R149). -/
@[irreducible] def padBlock (msg : Nat → Byte) (L j : Nat) : Vector Word 16 :=
  Vector.ofFn fun k : Fin 16 =>
    be32 (padByte msg L (64 * j + 4 * k.val)) (padByte msg L (64 * j + (4 * k.val + 1)))
      (padByte msg L (64 * j + (4 * k.val + 2))) (padByte msg L (64 * j + (4 * k.val + 3)))

/-- `BLK <- padblock(L, j)` (R149). -/
def State.loadBlock (j : Nat) (s : State) : State := { s with blk := padBlock s.msgByte s.len j }

/-- LOAD (R152): padding-controller output of block BLKIDX into BLK. -/
def execLoad (s : State) : Host.Outcome State Fault Refusal :=
  match s.blockError with
  | some c => .next (s.raiseError c)
  | none => .next (s.loadBlock s.blkidx.toNat).succeed

end Sys2Proof.Machine
end

