-- ==== Sys2Proof/Machine/Scheduler.lean ====
section
/-! DEFINITION. The message scheduler (R170 to R172) and EXPAND (R173). -/

namespace Sys2Proof.Machine

/-- W[n + 16] from the words before it (R171), with i = n + 16. -/
def scheduleWord (w : Vector Word 64) (n : Nat) (_h : n < 48) : Word :=
  w[n] + ssig0 w[n + 1] + w[n + 9] + ssig1 w[n + 14]

/-- The schedule after words 16 to 15 + n are computed, in increasing order (R171). -/
def expandUpTo (w0 : Vector Word 64) : Nat → Vector Word 64
  | 0 => w0
  | n + 1 =>
    let w := expandUpTo w0 n
    if h : n < 48 then w.set (n + 16) (scheduleWord w n h) else w

/-- The schedule of a block: words 0 to 15 are the block's (R170), the others are computed from them (R171) and from
nothing else (R172). -/
@[irreducible] def expandBlock (b : Vector Word 16) : Vector Word 64 :=
  expandUpTo (Vector.ofFn fun i : Fin 64 => if h : i.val < 16 then b[i.val] else 0) 48

/-- `W <- expand(BLK)` (R170, R171). -/
def State.expandW (s : State) : State := { s with w := expandBlock s.blk }

/-- EXPAND (R173). -/
def execExpand (s : State) : Host.Outcome State Fault Refusal := .next s.expandW.succeed

end Sys2Proof.Machine
end

