-- ==== Sys2Proof/Machine/Sequencer.lean ====
section
/-! DEFINITION. The command sequencer: ONE_SHOT (R230), BLOCK (R232), NOP (R233) and illegal words (R234). -/

namespace Sys2Proof.Machine

/-- One block of the message: pad it into BLK, expand BLK into W, compress W into H (R230, R232). -/
def State.hashBlock (j : Nat) (s : State) : State := ((s.loadBlock j).expandW).compressW

/-- Blocks 0 to n − 1, strictly in that order, each reading the H of the one before it (R196). -/
def State.hashBlocks (s : State) : Nat → State
  | 0 => s
  | n + 1 => (s.hashBlocks n).hashBlock n

/-- ONE_SHOT (R230): hash MSG[0..L−1] completely. -/
def execOneShot (s : State) : Host.Outcome State Fault Refusal :=
  match s.lengthError with
  | some c => .next (s.raiseError c)
  | none => .next ((s.initHash.hashBlocks (blockCount s.len)).serializeH).succeed

/-- BLOCK (R232): pad, expand and compress block BLKIDX into H, then advance BLKIDX modulo 2^32. -/
def execBlock (s : State) : Host.Outcome State Fault Refusal :=
  match s.blockError with
  | some c => .next (s.raiseError c)
  | none =>
    let t := s.hashBlock s.blkidx.toNat
    .next { t with blkidx := t.blkidx + 1 }.succeed

/-- NOP (R233): `complete success`, and nothing else. -/
def execNop (s : State) : Host.Outcome State Fault Refusal := .next s.succeed

/-- An illegal command word (R92, R234): `raise CommandError(ILLEGAL_COMMAND)`. All illegal words behave the same
way, so the word is no argument. -/
def execIllegal (s : State) : Host.Outcome State Fault Refusal := .next (s.raiseError .illegalCommand)

end Sys2Proof.Machine
end

