-- ==== Sys2Proof/Machine/Engine.lean ====
section
/-! DEFINITION. The engine's turn (R95). -/

namespace Sys2Proof.Machine

/-- One turn of the engine. It is enabled exactly when STATUS.BUSY = 1; it then decodes PENDING and performs the
command as one indivisible transition (R95, R105). When BUSY = 0 it is idle and every state element keeps its value
(R277). BUSY = 1 with nothing in PENDING is an internal invariant violation (R42, R271). -/
def engineTurn (s : State) : Host.Outcome State Fault Refusal :=
  if s.busy then
    match s.fetch with
    | some v => exec (decode v) s
    | none => .fault .internalInvariant
  else .next s

end Sys2Proof.Machine
end

