-- ==== Sys2Proof/Machine/HostAccess.lean ====
section
/-! DEFINITION. The host's accesses: the decoder of bus transactions (R61, R62, R102), the register map (R39, R40),
RegRead and RegWrite with the rules for BUSY = 1 (R61, R67, R68, R93, R94), and the MSG primitives (R62 to R66). -/

namespace Sys2Proof.Machine

/-- The host primitive a bus transaction stands for (R102); none where R61 and R62 have no such primitive (log
entry 10). A narrow write's data is a u8, so it fits in 8 bits. -/
def Txn.decode (t : Txn) : Option HostOp :=
  match t.space, t.dir with
  | .reg, .read => if t.width = 32 ∧ t.addr % 4 = 0 ∧ t.addr ≤ 0xFFC then some (.regRead t.addr) else none
  | .reg, .write => if t.width = 32 ∧ t.addr % 4 = 0 ∧ t.addr ≤ 0xFFC then some (.regWrite t.addr t.data) else none
  | .msg, .read =>
    if t.width = 8 then some (.msgRead8 t.addr) else if t.width = 32 then some (.msgRead32 t.addr) else none
  | .msg, .write =>
    if t.width = 8 ∧ t.data.toNat < 2 ^ 8 then some (.msgWrite8 t.addr (t.data.setWidth 8))
    else if t.width = 32 then some (.msgWrite32 t.addr t.data)
    else none

/-- off(NAME): the offset of a register in the REG space (R40, R102). -/
def Reg.offset : Reg → Nat
  | .id => 0x000
  | .ctrl => 0x004
  | .cmd => 0x008
  | .status => 0x00C
  | .lenLo => 0x010
  | .lenHi => 0x014
  | .blkidx => 0x018
  | .nblk => 0x01C
  | .round => 0x020
  | .msgcap => 0x024
  | .h n => 0x040 + 4 * n.val
  | .wv n => 0x060 + 4 * n.val
  | .blk n => 0x080 + 4 * n.val
  | .w n => 0x100 + 4 * n.val
  | .k n => 0x200 + 4 * n.val
  | .iv n => 0x300 + 4 * n.val
  | .dig n => 0x320 + 4 * n.val

/-- The single registers at the start of the REG map (R40), by offset. -/
def Reg.ofLowOffset : Nat → Option Reg
  | 0x000 => some .id
  | 0x004 => some .ctrl
  | 0x008 => some .cmd
  | 0x00C => some .status
  | 0x010 => some .lenLo
  | 0x014 => some .lenHi
  | 0x018 => some .blkidx
  | 0x01C => some .nblk
  | 0x020 => some .round
  | 0x024 => some .msgcap
  | _ => none

/-- The register at an offset of the REG space; none where the offset is reserved (R39, R40). -/
def Reg.ofOffset (off : Nat) : Option Reg :=
  if off < 0x040 then Reg.ofLowOffset off
  else if h : 0x040 ≤ off ∧ off < 0x060 then some (.h ⟨(off - 0x040) / 4, by omega⟩)
  else if h : 0x060 ≤ off ∧ off < 0x080 then some (.wv ⟨(off - 0x060) / 4, by omega⟩)
  else if h : 0x080 ≤ off ∧ off < 0x0C0 then some (.blk ⟨(off - 0x080) / 4, by omega⟩)
  else if h : 0x100 ≤ off ∧ off < 0x200 then some (.w ⟨(off - 0x100) / 4, by omega⟩)
  else if h : 0x200 ≤ off ∧ off < 0x300 then some (.k ⟨(off - 0x200) / 4, by omega⟩)
  else if h : 0x300 ≤ off ∧ off < 0x320 then some (.iv ⟨(off - 0x300) / 4, by omega⟩)
  else if h : 0x320 ≤ off ∧ off < 0x340 then some (.dig ⟨(off - 0x320) / 4, by omega⟩)
  else none

/-- The value a register holds or computes (R23 to R38, R124, R125). -/
def State.regValue (s : State) : Reg → Word
  | .id => idValue
  | .ctrl => s.ctrlWord
  | .cmd => s.cmd
  | .status => s.statusWord
  | .lenLo => s.lenLo
  | .lenHi => s.lenHi
  | .blkidx => s.blkidx
  | .nblk => s.nblk
  | .round => s.roundWord
  | .msgcap => s.msgCap
  | .h n => s.h[n]
  | .wv n => s.wv[n]
  | .blk n => s.blk[n]
  | .w n => s.w[n]
  | .k n => roundConstants[n]
  | .iv n => initialHash[n]
  | .dig n => s.dig[n]

/-- The registers that a pending command may write, whose reads while BUSY = 1 are unspecified: H, WV, BLK, W, DIG,
ROUND and BLKIDX (R67, U1), whichever command is pending (log entry 3). -/
def Reg.unsettledWhileBusy : Reg → Bool
  | .h _ => true
  | .wv _ => true
  | .blk _ => true
  | .w _ => true
  | .dig _ => true
  | .round => true
  | .blkidx => true
  | .id => false
  | .ctrl => false
  | .cmd => false
  | .status => false
  | .lenLo => false
  | .lenHi => false
  | .nblk => false
  | .msgcap => false
  | .k _ => false
  | .iv _ => false

/-- `RegRead(off)`: a reserved offset reads 0 (R39); while BUSY = 1 an unsettled register reads as a fresh free word
(R67); every other read returns the register's value. -/
def State.regRead (off : Nat) (s : State) : State :=
  match Reg.ofOffset off with
  | none => s.answer (.u32 0)
  | some r =>
    if s.busy && r.unsettledWhileBusy then { s with draws := s.draws + 1 }.answer (.u32 (Config.freeWord s.draws))
    else s.answer (.u32 (s.regValue r))

/-- A write that the BUSY rule of R68 guards: dropped with WERR while BUSY = 1, performed otherwise. -/
def State.guarded (write : State → State) (s : State) : State := if s.busy then s.dropWrite else write s

/-- `RegWrite(off, v)` to a register: CTRL and STATUS are written even while BUSY = 1 (R31, R33); CMD, LEN, BLKIDX, H and
BLK are dropped then (R68, R94); read-only registers ignore the write (R68, R126). A write to CMD issues a command
(R32, R93). -/
def State.writeReg (v : Word) (s : State) : Reg → State
  | .ctrl => { s with ctrlIE := v.getLsbD 0 }
  | .status => s.clearStatus v
  | .cmd => s.guarded (State.accept v)
  | .lenLo => s.guarded fun s => { s with lenLo := v }
  | .lenHi => s.guarded fun s => { s with lenHi := v }
  | .blkidx => s.guarded fun s => { s with blkidx := v }
  | .h n => s.guarded fun s => { s with h := s.h.set n v }
  | .blk n => s.guarded fun s => { s with blk := s.blk.set n v }
  | .id => s
  | .nblk => s
  | .round => s
  | .msgcap => s
  | .wv _ => s
  | .w _ => s
  | .k _ => s
  | .iv _ => s
  | .dig _ => s

/-- `RegWrite(off, v)`: a write to a reserved offset is ignored (R39). -/
def State.regWrite (off : Nat) (v : Word) (s : State) : State :=
  match Reg.ofOffset off with
  | none => s
  | some r => s.writeReg v r

/-- `MsgRead8(a)` (R63, R66): an out-of-range read sets AERR and returns 0. -/
def State.msgRead8 (a : Nat) (s : State) : State :=
  if a < s.msgCap.toNat then s.answer (.u8 (s.msgByte a)) else s.badAccess.answer (.u8 0)

/-- `MsgWrite8(a, v)` (R63, R66, R68): the range is checked before BUSY. -/
def State.msgWrite8 (a : Nat) (v : Byte) (s : State) : State :=
  if a < s.msgCap.toNat then s.guarded (State.storeByte a v) else s.badAccess

/-- Whether a 32-bit MSG access is aligned and in range (R64, R66). -/
def State.msgWordOk (a : Nat) (s : State) : Bool := decide (a % 4 = 0) && decide (a + 4 ≤ s.msgCap.toNat)

/-- `MsgRead32(a)` (R64, R66). -/
def State.msgRead32 (a : Nat) (s : State) : State :=
  if s.msgWordOk a then s.answer (.u32 (s.msgWord a)) else s.badAccess.answer (.u32 0)

/-- `MsgWrite32(a, v)` (R64, R66, R68). -/
def State.msgWrite32 (a : Nat) (v : Word) (s : State) : State :=
  if s.msgWordOk a then s.guarded (State.storeWord a v) else s.badAccess

/-- One host primitive, one atomic step (R61, R62, R72). -/
def hostOp (s : State) : HostOp → State
  | .regRead off => s.regRead off
  | .regWrite off v => s.regWrite off v
  | .msgRead8 a => s.msgRead8 a
  | .msgWrite8 a v => s.msgWrite8 a v
  | .msgRead32 a => s.msgRead32 a
  | .msgWrite32 a v => s.msgWrite32 a v

/-- One turn of the host: its bus transaction is performed, or refused where the interface cannot express it (R61,
U10). -/
def hostTurn (t : Txn) (s : State) : Host.Outcome State Fault Refusal :=
  match t.decode with
  | some op => .next (hostOp s op)
  | none => .refused .inexpressibleAccess

end Sys2Proof.Machine
end

