-- ==== Sys2Proof/Machine/Step.lean ====
section
/-! DEFINITION. One step of the machine: the next turn of the agenda, or the engine's when the agenda is empty
(R20, R76, R96; log entry 2). -/

namespace Sys2Proof.Machine

/-- One step. The agenda says which agent moves next, so every interleaving of host and engine is some agenda (R76).
When it is empty, the host is silent and the engine moves, so an accepted command completes (R96); with nothing
pending the engine is idle (R277). -/
def step (s : State) : Host.Outcome State Fault Refusal :=
  match s.agenda with
  | [] => engineTurn s
  | .engine :: rest => engineTurn { s with agenda := rest }
  | .host t :: rest => hostTurn t { s with agenda := rest }
  | .reset :: rest => .next { s with agenda := rest }.applyReset

/-- `s` with the command word `w` accepted (R93) and the engine's turn next, so that the next step runs it. A command
word has 32 bits, the bits above `nbits` being 0 (log entry 6). -/
def State.withFetchWord (s : State) (nbits w : Nat) : State :=
  let t := s.accept (BitVec.ofNat 32 (w % 2 ^ nbits))
  { t with agenda := .engine :: t.agenda }

end Sys2Proof.Machine
end

