-- ==== Sys2Proof/Machine/Algorithm.lean ====
section
/-! DEFINITION. The document's operations on byte sequences, as functions of their own (R3, R140, R220, R230): what the
commands are compared with. The machine itself calls none of these. -/

namespace Sys2Proof.Machine

/-- The 64-byte block j of a padded message, as 16 big-endian words (R170). -/
def blockOf (p : List Byte) (j : Nat) : Vector Word 16 :=
  Vector.ofFn fun k : Fin 16 =>
    be32 (p.getD (64 * j + 4 * k.val) 0) (p.getD (64 * j + (4 * k.val + 1)) 0) (p.getD (64 * j + (4 * k.val + 2)) 0)
      (p.getD (64 * j + (4 * k.val + 3)) 0)

/-- The compression function: one block folded into the hash state (R190 to R193). -/
def compressBlock (h : Vector Word 8) (b : Vector Word 16) : Vector Word 8 := addWords h (rounds64 h (expandBlock b))

/-- The hash state after the first n blocks of a padded message, from the initial hash values (R196, R230). -/
def hashChain (p : List Byte) : Nat → Vector Word 8
  | 0 => initialHash
  | n + 1 => compressBlock (hashChain p n) (blockOf p n)

/-- The document's `one_shot` (R230): the digest of a message, or none for its LengthOverflow. -/
def oneShotDigest (m : List Byte) : Option (Vector Byte 32) :=
  (padGuarded m).map fun p => serialize (hashChain p (p.length / 64))

/-- The message in the buffer: MSG[0..L−1]. -/
def State.message (s : State) : List Byte := (List.range s.len).map s.msgByte

end Sys2Proof.Machine
end

