-- ==== Sys2Proof/Machine/HostProgram.lean ====
section
/-! DEFINITION. The host-program notation (R102) and its pseudo-instructions (R103), as bus transactions and as turns of
the agenda. The host's own loops and tests belong to the host (R102): a program here is one path through them. -/

namespace Sys2Proof.Machine

/-- One line of a host program (R102). -/
inductive HostLine where
  | wr (r : Reg) (v : Word)
  | rd (r : Reg)
  | wb (a : Nat) (v : Byte)
  | ww (a : Nat) (v : Word)
  | rb (a : Nat)
  | rw (a : Nat)
deriving DecidableEq, Repr

/-- The bus transaction of a line (the table of R102). -/
def HostLine.txn : HostLine → Txn
  | .wr r v => ⟨.write, .reg, r.offset, 32, v⟩
  | .rd r => ⟨.read, .reg, r.offset, 32, 0⟩
  | .wb a v => ⟨.write, .msg, a, 8, v.setWidth 32⟩
  | .ww a v => ⟨.write, .msg, a, 32, v⟩
  | .rb a => ⟨.read, .msg, a, 8, 0⟩
  | .rw a => ⟨.read, .msg, a, 32, 0⟩

/-- A line as a turn of the host. -/
def HostLine.turn (l : HostLine) : Turn := .host l.txn

/-- NAME: how a register is written in a host program (R102). -/
def Reg.name : Reg → String
  | .id => "ID"
  | .ctrl => "CTRL"
  | .cmd => "CMD"
  | .status => "STATUS"
  | .lenLo => "LEN_LO"
  | .lenHi => "LEN_HI"
  | .blkidx => "BLKIDX"
  | .nblk => "NBLK"
  | .round => "ROUND"
  | .msgcap => "MSGCAP"
  | .h n => "H" ++ Nat.repr n.val
  | .wv n => "WV" ++ Nat.repr n.val
  | .blk n => "BLK" ++ Nat.repr n.val
  | .w n => "W" ++ Nat.repr n.val
  | .k n => "K" ++ Nat.repr n.val
  | .iv n => "IV" ++ Nat.repr n.val
  | .dig n => "DIG" ++ Nat.repr n.val

/-- `cmd MNEMONIC` (R103). -/
def cmdLine (i : Instr) : HostLine := .wr .cmd (encode i)

/-- `clear` (R103): DONE, ERR with ERRCODE, WERR and AERR. -/
def clearLine : HostLine := .wr .status 0x00000306

/-- `setlen L` (R103): the low word, then the high word. -/
def setlenLines (L : BitVec 64) : List HostLine := [.wr .lenLo (L.extractLsb' 0 32), .wr .lenHi (L.extractLsb' 32 32)]

/-- `wait` (R103), on the path where `polls` reads of STATUS find BUSY = 1, the engine then moves, and one more read
finds BUSY = 0. -/
def waitTurns (polls : Nat) : List Turn :=
  List.replicate polls (HostLine.rd .status).turn ++ [.engine, (HostLine.rd .status).turn]

/-- `run MNEMONIC` (R103): `cmd MNEMONIC`, then `wait`. -/
def runTurns (polls : Nat) (i : Instr) : List Turn := (cmdLine i).turn :: waitTurns polls

/-- The blocks 0 to n − 1 by single commands (R231): BLKIDX <- j, then LOAD, EXPAND and COMPRESS, for each j. -/
def blocksByHand : Nat → List Turn
  | 0 => []
  | n + 1 =>
    blocksByHand n ++ (HostLine.wr .blkidx (BitVec.ofNat 32 n)).turn :: runTurns 0 .load ++ runTurns 0 .expand ++
      runTurns 0 .compress

/-- The host sequence that R231 compares ONE_SHOT with: INIT, the n blocks one by one, FINALIZE. -/
def oneShotByHand (n : Nat) : List Turn := runTurns 0 .init ++ blocksByHand n ++ runTurns 0 .finalize

end Sys2Proof.Machine
end

