-- ==== Sys2Proof/Safety.lean ====
section
/-! DEFINITION. The terms the statements use: the invariant of the machine, what a command leaves alone, and how a
command ends. -/

namespace Sys2Proof.Machine

/-- The invariant of the machine, each clause a rule of the spec about every reachable state. -/
structure State.Inv (s : State) : Prop where
  /-- MSG_CAP is a legal value (R10). -/
  cap_legal : Config.LegalMsgCap s.msgCap.toNat
  /-- The message buffer keeps its canonical form. -/
  msg_wf : Memory.wf s.msg
  /-- MSG has no byte at or past MSG_CAP (R62). -/
  msg_in_range : ∀ c ∈ s.msg, c.1 < s.msgCap.toNat
  /-- PENDING "is valid exactly while STATUS.BUSY = 1" (R42). -/
  pending_iff_busy : s.pending.isSome = s.busy
  /-- While a command is pending, CMD holds the same word (R42). -/
  cmd_is_pending : ∀ v, s.pending = some v → s.cmd = v
  /-- Acceptance clears DONE and ERR, and only completion sets them (R93, R97, R98). -/
  busy_not_complete : s.busy = true → s.done = false ∧ s.err = false
  /-- "At most one of DONE and ERR is 1 at any time" (R33). -/
  done_err_exclusive : s.done = true → s.err = false
  /-- ERRCODE is "0 when ERR = 0" (R33), and names an error when ERR = 1 (R98). -/
  errcode_iff_err : s.errcode.isSome = s.err
  /-- ROUND "always reads 0 or 64" (R273). -/
  round_0_or_64 : s.round = 0 ∨ s.round = 64

/-- What no command writes (R99), with every byte of MSG (R43, R69), and the model's own fields. -/
structure KeepsInputs (s t : State) : Prop where
  ctrl : t.ctrlIE = s.ctrlIE
  cmd : t.cmd = s.cmd
  werr : t.werr = s.werr
  aerr : t.aerr = s.aerr
  len_lo : t.lenLo = s.lenLo
  len_hi : t.lenHi = s.lenHi
  msgcap : t.msgCap = s.msgCap
  msg_byte : ∀ a, t.msgByte a = s.msgByte a
  msg_written : ∀ a, Memory.read t.msg a = Memory.read s.msg a
  own_fields : t.powerOn = s.powerOn ∧ t.draws = s.draws ∧ t.agenda = s.agenda ∧ t.answers = s.answers

/-- Completion with success (R97): BUSY <- 0, DONE <- 1, PENDING no longer valid (R42), ERR and ERRCODE unchanged. -/
structure Succeeds (s t : State) : Prop where
  busy : t.busy = false
  pending : t.pending = none
  done : t.done = true
  err : t.err = s.err
  errcode : t.errcode = s.errcode

/-- Completion with an error (R98, R262): BUSY <- 0, ERR <- 1, ERRCODE <- the code, and every other register and every
byte of MSG unchanged. -/
structure FailsWith (c : CommandError) (s t : State) : Prop where
  busy : t.busy = false
  pending : t.pending = none
  err : t.err = true
  errcode : t.errcode = some c
  done : t.done = s.done
  h : t.h = s.h
  wv : t.wv = s.wv
  blk : t.blk = s.blk
  w : t.w = s.w
  dig : t.dig = s.dig
  round : t.round = s.round
  blkidx : t.blkidx = s.blkidx
  inputs : KeepsInputs s t

/-- The length errors of a command, LENGTH_OVERFLOW before LENGTH_RANGE (R146, R150, R263). -/
structure FailsOnLength (i : Instr) (s : State) : Prop where
  overflow : 2 ^ 61 ≤ s.len → ∃ t, exec i s = .next t ∧ FailsWith .lengthOverflow s t
  range : s.len < 2 ^ 61 → s.msgCap.toNat < s.len → ∃ t, exec i s = .next t ∧ FailsWith .lengthRange s t

/-- The block-index error of a command, after its length errors (R151, R263). -/
def FailsOnIndex (i : Instr) (s : State) : Prop :=
  s.len < 2 ^ 61 → s.len ≤ s.msgCap.toNat → (s.len + 8) / 64 + 1 ≤ s.blkidx.toNat →
    ∃ t, exec i s = .next t ∧ FailsWith .blockRange s t

/-- The REG offsets whose writes are dropped while BUSY = 1: CMD, LEN_LO, LEN_HI, BLKIDX, H[k] and BLK[k] (R68). -/
abbrev GuardedOffset (off : Nat) : Prop :=
  off = 0x008 ∨ off = 0x010 ∨ off = 0x014 ∨ off = 0x018 ∨
    (off % 4 = 0 ∧ ((0x040 ≤ off ∧ off < 0x060) ∨ (0x080 ≤ off ∧ off < 0x0C0)))

/-- The REG offsets whose reads are unspecified while BUSY = 1: BLKIDX, ROUND, H, WV, BLK, W and DIG (R67). -/
abbrev UnsettledOffset (off : Nat) : Prop :=
  off = 0x018 ∨ off = 0x020 ∨ (0x040 ≤ off ∧ off < 0x0C0) ∨ (0x100 ≤ off ∧ off < 0x200) ∨ (0x320 ≤ off ∧ off < 0x340)

/-- A MSG access is aligned and in range: a byte below MSG_CAP (R63), or an aligned word that ends at or below it (R64). Any
other MSG access is misaligned or out of range (R66). -/
abbrev MsgInRange (s : State) (x : Txn) : Prop :=
  (x.width = 8 ∧ x.addr < s.msgCap.toNat) ∨ (x.width = 32 ∧ x.addr % 4 = 0 ∧ x.addr + 4 ≤ s.msgCap.toNat)

/-- Two states hold the same message: LEN, MSG_CAP and MSG[0..L−1] agree (the message operands of R99). -/
structure SameMessage (s t : State) : Prop where
  len_lo : t.lenLo = s.lenLo
  len_hi : t.lenHi = s.lenHi
  msgcap : t.msgCap = s.msgCap
  bytes : ∀ a, a < s.len → t.msgByte a = s.msgByte a

/-- `k` steps of the machine, stopping at the first fault or refusal: `Host.Core.run` on this machine's own types. -/
def run : Nat → State → Host.Outcome State Fault Refusal
  | 0, s => .next s
  | k + 1, s =>
    match step s with
    | .next t => run k t
    | .fault f => .fault f
    | .refused r => .refused r

end Sys2Proof.Machine
end

