-- ==== Sys2Proof/Certificates/Slice0/Obligations.lean ====
section
/-! DEFINITION. The statements for the provers. Each docstring names the rule of the spec it formalises, or the sections it
rests on. The agenda, the answers, the draws and the power-on number are the model's own fields: where a statement names
them, it says that they go on as they were. -/

open Sys2Proof Sys2Proof.Machine

/-! ### Encoding and decoding -/

/-- The eight command words of the table, and words beside them, decode as R91 and R92 say. -/
def Obligations.OpcodeWordsDecodeToTheirCommands : Prop :=
  decode 0x00000000 = .nop ∧ decode 0x00000001 = .init ∧ decode 0x00000002 = .load ∧ decode 0x00000003 = .expand ∧
    decode 0x00000004 = .compress ∧ decode 0x00000005 = .finalize ∧ decode 0x00000006 = .oneShot ∧
    decode 0x00000007 = .block ∧ decode 0x00000008 = .illegal 0x00000008 ∧ decode 0x0000000F = .illegal 0x0000000F ∧
    decode 0x00000010 = .illegal 0x00000010 ∧ decode 0x00000012 = .illegal 0x00000012 ∧
    decode 0x80000000 = .illegal 0x80000000

/-- R91, with R92's illegal words: a word is legal exactly when RSV = 0 and OPC is 0x0 to 0x7, and OPC selects the
command. -/
def Obligations.CommandWordsDecodeByRsvAndOpc : Prop :=
  ∀ v : Word,
    (v.toNat / 16 = 0 →
      (v.toNat % 16 = 0x0 → decode v = .nop) ∧ (v.toNat % 16 = 0x1 → decode v = .init) ∧
      (v.toNat % 16 = 0x2 → decode v = .load) ∧ (v.toNat % 16 = 0x3 → decode v = .expand) ∧
      (v.toNat % 16 = 0x4 → decode v = .compress) ∧ (v.toNat % 16 = 0x5 → decode v = .finalize) ∧
      (v.toNat % 16 = 0x6 → decode v = .oneShot) ∧ (v.toNat % 16 = 0x7 → decode v = .block)) ∧
    (v.toNat / 16 ≠ 0 ∨ 0x8 ≤ v.toNat % 16 → decode v = .illegal v)

/-- Decoding and encoding agree both ways: every well-formed command comes back from its word, and every one of the 2^32
words decodes to a well-formed command that it encodes (R90, R91, R92, R104). -/
def Obligations.DecodeAndEncodeAgree : Prop :=
  (∀ i : Instr, i.wellFormed = true → decode (encode i) = i) ∧
    ∀ v : Word, (decode v).wellFormed = true ∧ encode (decode v) = v

/-- The register map and the offsets of the registers' names agree (R40, R102). -/
def Obligations.RegisterOffsetsAgree : Prop :=
  (∀ r : Reg, Reg.ofOffset r.offset = some r ∧ r.offset % 4 = 0 ∧ r.offset ≤ 0xFFC) ∧
    ∀ (off : Nat) (r : Reg), off % 4 = 0 → Reg.ofOffset off = some r → r.offset = off

/-! ### The engine's turn -/

/-- The engine step decodes PENDING and performs the command, whichever way its turn comes (R95); and a fetched word
runs as what it decodes to. -/
def Obligations.EngineStepRunsTheDecodedCommand : Prop :=
  ∀ (s : State) (v : Word),
    (s.busy = true → s.pending = some v → s.agenda = [] → step s = exec (decode v) s) ∧
    (∀ rest, s.busy = true → s.pending = some v → s.agenda = .engine :: rest →
      step s = exec (decode v) { s with agenda := rest }) ∧
    step (s.withFetchWord 32 v.toNat) = exec (decode v) (s.accept v)

/-- R277: when BUSY = 0 the engine takes no step and every state element keeps its value; and it wakes only on a command
acceptance, a write to CMD. -/
def Obligations.IdleEngineWakesOnlyOnAcceptance : Prop :=
  ∀ s : State, s.busy = false →
    (s.agenda = [] → step s = .next s) ∧ (∀ rest, s.agenda = .engine :: rest → step s = .next { s with agenda := rest }) ∧
    ∀ t, step s = .next t → t.busy = true →
      ∃ (v : Word) (rest : List Turn), s.agenda = .host ⟨.write, .reg, 0x008, 32, v⟩ :: rest ∧ t.cmd = v ∧
        t.pending = some v

/-- R97 and R98 over the whole command set: every command completes, with success or with an error, and changes nothing
that commands do not write. -/
def Obligations.EveryCommandCompletes : Prop :=
  ∀ (i : Instr) (s : State), ∃ t, exec i s = .next t ∧ KeepsInputs s t ∧
    (Succeeds s t ∨ ∃ c, FailsWith c s t)

/-- The write column of R99, command by command. -/
def Obligations.CommandsWriteOnlyTheirRegisters : Prop :=
  ∀ (i : Instr) (s t : State), exec i s = .next t →
    (i ≠ .init → i ≠ .compress → i ≠ .oneShot → i ≠ .block → t.h = s.h) ∧
    (i ≠ .compress → i ≠ .oneShot → i ≠ .block → t.wv = s.wv ∧ t.round = s.round) ∧
    (i ≠ .load → i ≠ .oneShot → i ≠ .block → t.blk = s.blk) ∧
    (i ≠ .expand → i ≠ .oneShot → i ≠ .block → t.w = s.w) ∧
    (i ≠ .finalize → i ≠ .oneShot → t.dig = s.dig) ∧
    (i ≠ .block → t.blkidx = s.blkidx)

/-- R96: an accepted command that no reset removes (R291) completes, whatever accesses the host still has: after finitely many
steps, with the command still pending, a step performs it, to success or to an error. In any case, resets included, the engine
ends idle. That the engine's turn comes at all is the model's form of weak fairness: an agenda is finite, and the engine moves
when it is empty (log entry 2). -/
def Obligations.EveryAcceptedCommandCompletesInTheEnd : Prop :=
  ∀ s : State, s.Inv → (∀ x, Turn.host x ∈ s.agenda → x.decode ≠ none) →
    (∀ v, s.busy = true → s.pending = some v → Turn.reset ∉ s.agenda →
      ∃ j t u, j ≤ s.agenda.length ∧ run j s = .next t ∧ t.busy = true ∧ t.pending = some v ∧ step t = .next u ∧
        exec (decode v) { t with agenda := t.agenda.tail } = .next u ∧ u.busy = false ∧ u.cmd = v ∧
        (u.done = true ∨ u.err = true)) ∧
    ∃ t, run (s.agenda.length + 1) s = .next t ∧ t.busy = false ∧ t.agenda = []

/-! ### The commands -/

/-- NOP (R233): nothing but the completion; and a NOP issued to an idle engine clears the status of a previous error, and
CMD reads 0 afterwards. -/
def Obligations.NopOnlyCompletes : Prop :=
  decode 0x00000000 = .nop ∧
  (∀ s : State, exec .nop s = .next { s with busy := false, pending := none, done := true }) ∧
  ∀ s : State, s.busy = false →
    ∃ t, run 2 { s with agenda := [.host ⟨.write, .reg, 0x008, 32, 0⟩, .engine] } = .next t ∧
      t = { s with
        agenda := [], cmd := 0, pending := none, done := true, err := false, errcode := none, busy := false }

/-- R92 and R234: a word with RSV ≠ 0 or OPC ≥ 0x8 is illegal; it is accepted like any other word, its engine step completes
with ILLEGAL_COMMAND (code 4) and changes nothing else, whatever the length registers hold; CMD reads it back; and all
illegal words behave the same way. -/
def Obligations.IllegalWordsFailAlike : Prop :=
  ∀ (s : State) (v : Word),
    (v.toNat / 16 ≠ 0 ∨ 0x8 ≤ v.toNat % 16 → decode v = .illegal v) ∧
    (∃ t, exec (.illegal v) s = .next t ∧ FailsWith .illegalCommand s t ∧ t.statusWord.extractLsb' 4 3 = 4 ∧
      ∀ u : Word, exec (.illegal u) s = .next t) ∧
    (v.toNat / 16 ≠ 0 ∨ 0x8 ≤ v.toNat % 16 → s.busy = false →
      ∃ t, run 2 { s with agenda := [.host ⟨.write, .reg, 0x008, 32, v⟩, .engine] } = .next t ∧
        t = { s with
          agenda := [], cmd := v, pending := none, done := false, err := true, errcode := some .illegalCommand,
          busy := false })

/-- INIT (R128): H <- IV, with the values of R125, and nothing else. -/
def Obligations.InitLoadsTheInitialHashValues : Prop :=
  decode 0x00000001 = .init ∧ ∀ s : State, ∃ t, exec .init s = .next t ∧
    t.h = #v[0x6a09e667, 0xbb67ae85, 0x3c6ef372, 0xa54ff53a, 0x510e527f, 0x9b05688c, 0x1f83d9ab, 0x5be0cd19] ∧
    t.wv = s.wv ∧ t.blk = s.blk ∧ t.w = s.w ∧ t.dig = s.dig ∧ t.round = s.round ∧ t.blkidx = s.blkidx ∧
    Succeeds s t ∧ KeepsInputs s t

/-- LOAD (R152): its errors in their order, and, on a length and a block index in range, the bytes of R148 in BLK, and nothing
else changed. -/
def Obligations.LoadWritesThePaddedBlock : Prop :=
  decode 0x00000002 = .load ∧ ∀ s : State, FailsOnLength .load s ∧ FailsOnIndex .load s ∧
    (s.len < 2 ^ 61 → s.len ≤ s.msgCap.toNat → s.blkidx.toNat < (s.len + 8) / 64 + 1 →
      ∃ t, exec .load s = .next t ∧
        (∀ n : Fin 64,
          let q := 64 * s.blkidx.toNat + n.val
          let F := 64 * ((s.len + 8) / 64 + 1) - 8
          (q < s.len → t.blkByte n = s.msgByte q) ∧
          (q = s.len → t.blkByte n = 0x80) ∧
          (s.len < q → q < F → t.blkByte n = 0x00) ∧
          (F ≤ q → (t.blkByte n).toNat = 8 * s.len / 256 ^ (7 - (q - F)) % 256)) ∧
        t.h = s.h ∧ t.wv = s.wv ∧ t.w = s.w ∧ t.dig = s.dig ∧ t.round = s.round ∧ t.blkidx = s.blkidx ∧
        Succeeds s t ∧ KeepsInputs s t)

/-- R146, first in the order of R263: L ≥ 2^61, "exactly when LEN_HI[31:29] ≠ 0", fails LOAD, BLOCK and ONE_SHOT with
LENGTH_OVERFLOW (code 1), whatever else would apply. -/
def Obligations.LengthOverflowFailsFirst : Prop :=
  (∀ s : State, 2 ^ 61 ≤ s.len ↔ s.lenHi.extractLsb' 29 3 ≠ 0) ∧
  ∀ (i : Instr) (s : State), i = .load ∨ i = .block ∨ i = .oneShot → 2 ^ 61 ≤ s.len →
    ∃ t, exec i s = .next t ∧ FailsWith .lengthOverflow s t ∧ t.statusWord.extractLsb' 4 3 = 1

/-- R150, second in the order of R263: MSG_CAP < L < 2^61 fails LOAD, BLOCK and ONE_SHOT with LENGTH_RANGE (code 2), whatever
BLKIDX is and whatever MSG holds; L = MSG_CAP is legal. -/
def Obligations.LengthBeyondTheBufferFails : Prop :=
  (∀ (i : Instr) (s : State), i = .load ∨ i = .block ∨ i = .oneShot → s.len < 2 ^ 61 → s.msgCap.toNat < s.len →
    ∃ t, exec i s = .next t ∧ FailsWith .lengthRange s t ∧ t.statusWord.extractLsb' 4 3 = 2) ∧
  ∀ s : State, s.len = s.msgCap.toNat → ∃ t, exec .oneShot s = .next t ∧ Succeeds s t

/-- R151, third in the order of R263: BLKIDX ≥ N(L) fails LOAD and BLOCK with BLOCK_RANGE (code 3). -/
def Obligations.BlockIndexBeyondTheMessageFails : Prop :=
  ∀ (i : Instr) (s : State), i = .load ∨ i = .block → s.len < 2 ^ 61 → s.len ≤ s.msgCap.toNat →
    (s.len + 8) / 64 + 1 ≤ s.blkidx.toNat →
    ∃ t, exec i s = .next t ∧ FailsWith .blockRange s t ∧ t.statusWord.extractLsb' 4 3 = 3

/-- EXPAND (R173): words 0 to 15 are the block's, big-endian (R170), words 16 to 63 follow the recurrence of R171, and
nothing else changes. -/
def Obligations.ExpandComputesTheSchedule : Prop :=
  decode 0x00000003 = .expand ∧ ∀ s : State, ∃ t, exec .expand s = .next t ∧
    (∀ k : Fin 16, t.w[k.val] = s.blk[k.val] ∧
      t.w[k.val] = be32 (s.blkByte ⟨4 * k.val, by omega⟩) (s.blkByte ⟨4 * k.val + 1, by omega⟩)
        (s.blkByte ⟨4 * k.val + 2, by omega⟩) (s.blkByte ⟨4 * k.val + 3, by omega⟩)) ∧
    (∀ n : Fin 48,
      let x := t.w[n.val + 1]
      let y := t.w[n.val + 14]
      let s0 := x.rotateRight 7 ^^^ x.rotateRight 18 ^^^ (x >>> 3)
      let s1 := y.rotateRight 17 ^^^ y.rotateRight 19 ^^^ (y >>> 10)
      t.w[n.val + 16] = t.w[n.val] + s0 + t.w[n.val + 9] + s1) ∧
    t.h = s.h ∧ t.wv = s.wv ∧ t.blk = s.blk ∧ t.dig = s.dig ∧ t.round = s.round ∧ t.blkidx = s.blkidx ∧
    Succeeds s t ∧ KeepsInputs s t

/-- COMPRESS (R195): the working variables v 0, v 1, .., v 64 are seeded from H (R190) and follow the round of R191 in
order (R192); WV takes v 64, H adds it element-wise (R193), ROUND is 64 (R194), and nothing else changes. -/
def Obligations.CompressRunsSixtyFourRounds : Prop :=
  decode 0x00000004 = .compress ∧ ∀ s : State, ∃ (t : State) (v : Nat → Vector Word 8), exec .compress s = .next t ∧
    v 0 = s.h ∧
    (∀ i : Fin 64,
      let a := (v i.val)[0]
      let b := (v i.val)[1]
      let c := (v i.val)[2]
      let d := (v i.val)[3]
      let e := (v i.val)[4]
      let f := (v i.val)[5]
      let g := (v i.val)[6]
      let h := (v i.val)[7]
      let S1 := e.rotateRight 6 ^^^ e.rotateRight 11 ^^^ e.rotateRight 25
      let chv := (e &&& f) ^^^ (~~~e &&& g)
      let temp1 := h + S1 + chv + roundConstants[i.val] + s.w[i.val]
      let S0 := a.rotateRight 2 ^^^ a.rotateRight 13 ^^^ a.rotateRight 22
      let majv := (a &&& b) ^^^ (a &&& c) ^^^ (b &&& c)
      let temp2 := S0 + majv
      v (i.val + 1) = #v[temp1 + temp2, a, b, c, d + temp1, e, f, g]) ∧
    t.wv = v 64 ∧ (∀ k : Fin 8, t.h[k.val] = s.h[k.val] + (v 64)[k.val]) ∧ t.round = 64 ∧
    t.blk = s.blk ∧ t.w = s.w ∧ t.dig = s.dig ∧ t.blkidx = s.blkidx ∧ Succeeds s t ∧ KeepsInputs s t

/-- FINALIZE (R222): the digest bytes are the words of H, each most significant byte first (R220), and nothing else
changes. -/
def Obligations.FinalizeSerializesTheHashState : Prop :=
  decode 0x00000005 = .finalize ∧ ∀ s : State, ∃ t, exec .finalize s = .next t ∧
    (∀ (k : Fin 8) (n : Fin 4),
      (t.digest[4 * k.val + n.val]).toNat = (s.h[k.val]).toNat / 256 ^ (3 - n.val) % 256) ∧
    t.dig = s.h ∧ t.h = s.h ∧ t.wv = s.wv ∧ t.blk = s.blk ∧ t.w = s.w ∧ t.round = s.round ∧ t.blkidx = s.blkidx ∧
    Succeeds s t ∧ KeepsInputs s t

/-- BLOCK (R232): its errors in their order, and, on a length and a block index in range, LOAD, EXPAND and COMPRESS in turn,
BLKIDX then advancing modulo 2^32; DIG keeps its value. -/
def Obligations.BlockIsLoadExpandCompress : Prop :=
  decode 0x00000007 = .block ∧ ∀ s : State, FailsOnLength .block s ∧ FailsOnIndex .block s ∧
    (s.len < 2 ^ 61 → s.len ≤ s.msgCap.toNat → s.blkidx.toNat < (s.len + 8) / 64 + 1 →
      ∃ a b c, exec .load s = .next a ∧ exec .expand a = .next b ∧ exec .compress b = .next c ∧
        exec .block s = .next { c with blkidx := s.blkidx + 1 } ∧ c.dig = s.dig ∧ Succeeds s c ∧ KeepsInputs s c)

/-- R232: on this hardware a successful BLOCK never wraps BLKIDX, since MSG_CAP ≤ 2^31 (R10). -/
def Obligations.BlockNeverWrapsItsIndex : Prop :=
  ∀ s t : State, s.Inv → exec .block s = .next t → t.err = false →
    t.blkidx.toNat = s.blkidx.toNat + 1 ∧ t.blkidx.toNat ≤ (s.len + 8) / 64 + 1

/-- ONE_SHOT (R230): its errors in their order, and, for every message that the buffer can hold, the document's digest of
MSG[0..L−1] in DIG; H, BLK, W, WV and ROUND hold what the last block left, and nothing else changes. -/
def Obligations.OneShotComputesTheDigestOfTheMessage : Prop :=
  decode 0x00000006 = .oneShot ∧ ∀ s : State, FailsOnLength .oneShot s ∧
    (s.len ≤ s.msgCap.toNat →
      ∃ t, exec .oneShot s = .next t ∧ oneShotDigest s.message = some t.digest ∧ t.dig = t.h ∧
        t.h = hashChain (pad s.message) (blockCount s.len) ∧
        t.blk = blockOf (pad s.message) (blockCount s.len - 1) ∧ t.w = expandBlock t.blk ∧
        t.wv = rounds64 (hashChain (pad s.message) (blockCount s.len - 1)) t.w ∧ t.round = 64 ∧
        t.blkidx = s.blkidx ∧ Succeeds s t ∧ KeepsInputs s t)

/-- R231: ONE_SHOT leaves H, BLK, W, WV, ROUND and DIG as the host sequence INIT; BLKIDX <- j, LOAD, EXPAND, COMPRESS for
each block; FINALIZE does, run on the whole machine. The run is the model's agenda (log entry 2), on the one path of each `wait`
on which no poll finds BUSY = 1 (log entry 13). -/
def Obligations.OneShotEqualsTheHostSequence : Prop :=
  ∀ s : State, s.busy = false → s.len ≤ s.msgCap.toNat →
    ∃ t u, exec .oneShot s = .next t ∧
      run (oneShotByHand (blockCount s.len)).length { s with agenda := oneShotByHand (blockCount s.len) } = .next u ∧
      u.h = t.h ∧ u.blk = t.blk ∧ u.w = t.w ∧ u.wv = t.wv ∧ u.round = t.round ∧ u.dig = t.dig ∧ t.blkidx = s.blkidx

/-- R294, R298: N(L) commands BLOCK from block 0 after INIT, then FINALIZE, give the digest that ONE_SHOT gives, and
leave BLKIDX = N(L). The run is the model's agenda (log entry 2), on the one path of each `wait` on which no poll finds BUSY = 1
(log entry 13). -/
def Obligations.BlockByBlockEqualsOneShot : Prop :=
  ∀ s : State, s.busy = false → s.len ≤ s.msgCap.toNat →
    let turns : List Turn :=
      runTurns 0 .init ++ (HostLine.wr .blkidx 0).turn ::
        (List.replicate (blockCount s.len) (runTurns 0 .block)).flatten ++ runTurns 0 .finalize
    ∃ t u, exec .oneShot s = .next t ∧ run turns.length { s with agenda := turns } = .next u ∧
      u.dig = t.dig ∧ u.h = t.h ∧ u.err = false ∧ u.blkidx.toNat = blockCount s.len

/-- R99 and R235: the data registers that a command writes are a function of the operands that its row names, and of nothing
else; and so is its error code, which the lengths and BLKIDX alone decide (R150: no MSG byte is read then). -/
def Obligations.ResultsDependOnlyOnTheOperands : Prop :=
  ∀ s s' t t' : State,
    (exec .init s = .next t → exec .init s' = .next t' → t'.h = t.h) ∧
    (exec .load s = .next t → exec .load s' = .next t' → s'.len = s.len → s'.msgCap = s.msgCap → s'.blkidx = s.blkidx →
      (s.len ≤ s.msgCap.toNat → s.blkidx.toNat < (s.len + 8) / 64 + 1 → SameMessage s s' → t'.blk = t.blk) ∧
      (s.msgCap.toNat < s.len ∨ (s.len + 8) / 64 + 1 ≤ s.blkidx.toNat → t'.errcode = t.errcode)) ∧
    (exec .expand s = .next t → exec .expand s' = .next t' → s'.blk = s.blk → t'.w = t.w) ∧
    (exec .compress s = .next t → exec .compress s' = .next t' → s'.h = s.h → s'.w = s.w →
      t'.h = t.h ∧ t'.wv = t.wv ∧ t'.round = t.round) ∧
    (exec .finalize s = .next t → exec .finalize s' = .next t' → s'.h = s.h → t'.dig = t.dig) ∧
    (exec .oneShot s = .next t → exec .oneShot s' = .next t' → s'.len = s.len → s'.msgCap = s.msgCap →
      (s.len ≤ s.msgCap.toNat → SameMessage s s' →
        t'.h = t.h ∧ t'.blk = t.blk ∧ t'.w = t.w ∧ t'.wv = t.wv ∧ t'.round = t.round ∧ t'.dig = t.dig) ∧
      (s.msgCap.toNat < s.len → t'.errcode = t.errcode)) ∧
    (exec .block s = .next t → exec .block s' = .next t' → s'.len = s.len → s'.msgCap = s.msgCap → s'.blkidx = s.blkidx →
      (s.len ≤ s.msgCap.toNat → s.blkidx.toNat < (s.len + 8) / 64 + 1 → SameMessage s s' → s'.h = s.h →
        t'.h = t.h ∧ t'.blk = t.blk ∧ t'.w = t.w ∧ t'.wv = t.wv ∧ t'.round = t.round ∧ t'.blkidx = t.blkidx) ∧
      (s.msgCap.toNat < s.len ∨ (s.len + 8) / 64 + 1 ≤ s.blkidx.toNat → t'.errcode = t.errcode)) ∧
    ∀ v v' : Word, exec (.illegal v) s = .next t → exec (.illegal v') s' = .next t' → t'.errcode = t.errcode

/-! ### Padding and the constant tables -/

/-- R148: the blocks padblock(L, 0) to padblock(L, N(L) − 1), one after the other, are pad(M). -/
def Obligations.PaddedBlocksConcatenateToThePaddedMessage : Prop :=
  ∀ m : List Byte, m.length < 2 ^ 61 →
    (List.range (blockCount m.length)).flatMap (fun j =>
      List.ofFn fun n : Fin 64 =>
        wordByte (padBlock (fun a => m.getD a 0) m.length j)[n.val / 4] (n.val % 4)) = pad m

/-- R140, R142, R143: the shape of a padded message. -/
def Obligations.PaddedMessageHasItsShape : Prop :=
  ∀ m : List Byte, m.length < 2 ^ 61 →
    let L := m.length
    (pad m).length = 64 * blockCount L ∧ 1 ≤ blockCount L ∧ L + 9 ≤ (pad m).length ∧ (pad m).length ≤ L + 72 ∧
    (pad m).take L = m ∧ (pad m)[L]? = some 0x80 ∧
    (∀ q, L < q → q < (pad m).length - 8 → (pad m)[q]? = some 0x00) ∧
    ((pad m).drop ((pad m).length - 8)).foldl (fun n b => 256 * n + b.toNat) 0 = 8 * L ∧
    (pad m).length = L + 9 + zeroFill L ∧ (L + 1 + zeroFill L + 8) % 64 = 0 ∧
    (∀ z, (L + 1 + z + 8) % 64 = 0 → zeroFill L ≤ z) ∧ (zeroFill L : Int) = (55 - (L : Int)) % 64 ∧ zeroFill L ≤ 63

/-- R120, both lines: K[j] is the fractional part of the cube root of the (j+1)-th prime, over the reals, and the low
32 bits of an integer cube root. -/
def Obligations.RoundConstantsAreCubeRootFractions : Prop :=
  ∀ j : Fin 64,
    let p : Nat := Nat.nth Nat.Prime j.val
    (roundConstants[j.val]).toNat = ⌊Int.fract ((p : ℝ) ^ (1 / 3 : ℝ)) * 2 ^ 32⌋₊ ∧
    ∃ y : Nat, y ^ 3 ≤ p * 2 ^ 96 ∧ p * 2 ^ 96 < (y + 1) ^ 3 ∧ (roundConstants[j.val]).toNat = y % 2 ^ 32

/-- R121, both lines: IV[k] is the fractional part of the square root of the (k+1)-th prime, over the reals, and the low
32 bits of an integer square root. -/
def Obligations.InitialHashValuesAreSquareRootFractions : Prop :=
  ∀ k : Fin 8,
    let p : Nat := Nat.nth Nat.Prime k.val
    (initialHash[k.val]).toNat = ⌊Int.fract (Real.sqrt p) * 2 ^ 32⌋₊ ∧
    ∃ y : Nat, y ^ 2 ≤ p * 2 ^ 64 ∧ p * 2 ^ 64 < (y + 1) ^ 2 ∧ (initialHash[k.val]).toNat = y % 2 ^ 32

/-! ### Issuing commands and host writes -/

/-- R93: a write to CMD while BUSY = 0 is accepted, and changes exactly what the rule lists. -/
def Obligations.CommandWriteIsAccepted : Prop :=
  ∀ (s : State) (v : Word) (rest : List Turn), s.busy = false →
    s.agenda = .host ⟨.write, .reg, 0x008, 32, v⟩ :: rest →
    step s = .next { s with
      agenda := rest, cmd := v, pending := some v, done := false, err := false, errcode := none, busy := true }

/-- R94: a write to CMD while BUSY = 1 is dropped and sets WERR; the running command and CMD are unchanged. -/
def Obligations.CommandWriteWhileBusyIsDropped : Prop :=
  ∀ (s : State) (v : Word) (rest : List Turn), s.busy = true →
    s.agenda = .host ⟨.write, .reg, 0x008, 32, v⟩ :: rest →
    step s = .next { s with agenda := rest, werr := true }

/-- R68: what each host write does while BUSY = 1. -/
def Obligations.WritesWhileBusy : Prop :=
  ∀ (s : State) (rest : List Turn), s.busy = true →
    (∀ (off : Nat) (v : Word), GuardedOffset off → s.agenda = .host ⟨.write, .reg, off, 32, v⟩ :: rest →
      step s = .next { s with agenda := rest, werr := true }) ∧
    (∀ (a : Nat) (v : Word), a < s.msgCap.toNat → v.toNat < 256 →
      s.agenda = .host ⟨.write, .msg, a, 8, v⟩ :: rest → step s = .next { s with agenda := rest, werr := true }) ∧
    (∀ (a : Nat) (v : Word), a % 4 = 0 → a + 4 ≤ s.msgCap.toNat →
      s.agenda = .host ⟨.write, .msg, a, 32, v⟩ :: rest → step s = .next { s with agenda := rest, werr := true }) ∧
    (∀ v : Word, s.agenda = .host ⟨.write, .reg, 0x004, 32, v⟩ :: rest →
      step s = .next { s with agenda := rest, ctrlIE := v.getLsbD 0 }) ∧
    (∀ v : Word, s.agenda = .host ⟨.write, .reg, 0x00C, 32, v⟩ :: rest →
      step s = .next { s with
        agenda := rest, done := s.done && !v.getLsbD 1, err := s.err && !v.getLsbD 2,
        errcode := if v.getLsbD 2 then none else s.errcode, werr := s.werr && !v.getLsbD 8,
        aerr := s.aerr && !v.getLsbD 9 }) ∧
    (∀ (off : Nat) (v : Word), off % 4 = 0 → off ≤ 0xFFC → ¬GuardedOffset off → off ≠ 0x004 → off ≠ 0x00C →
      s.agenda = .host ⟨.write, .reg, off, 32, v⟩ :: rest → step s = .next { s with agenda := rest })

/-- R23, R25, R34, R36, R39: host writes to the registers while BUSY = 0; writes to read-only registers and to reserved
offsets are ignored. -/
def Obligations.RegisterWritesWhileIdle : Prop :=
  ∀ (s : State) (v : Word) (rest : List Turn), s.busy = false →
    (s.agenda = .host ⟨.write, .reg, 0x010, 32, v⟩ :: rest → step s = .next { s with agenda := rest, lenLo := v }) ∧
    (s.agenda = .host ⟨.write, .reg, 0x014, 32, v⟩ :: rest → step s = .next { s with agenda := rest, lenHi := v }) ∧
    (s.agenda = .host ⟨.write, .reg, 0x018, 32, v⟩ :: rest → step s = .next { s with agenda := rest, blkidx := v }) ∧
    (∀ k : Fin 8, s.agenda = .host ⟨.write, .reg, 0x040 + 4 * k.val, 32, v⟩ :: rest →
      ∃ x : Vector Word 8, step s = .next { s with agenda := rest, h := x } ∧
        ∀ n : Fin 8, x[n.val] = if n = k then v else s.h[n.val]) ∧
    (∀ k : Fin 16, s.agenda = .host ⟨.write, .reg, 0x080 + 4 * k.val, 32, v⟩ :: rest →
      ∃ x : Vector Word 16, step s = .next { s with agenda := rest, blk := x } ∧
        ∀ n : Fin 16, x[n.val] = if n = k then v else s.blk[n.val]) ∧
    (∀ off : Nat, off % 4 = 0 → off ≤ 0xFFC → ¬GuardedOffset off → off ≠ 0x004 → off ≠ 0x00C →
      s.agenda = .host ⟨.write, .reg, off, 32, v⟩ :: rest → step s = .next { s with agenda := rest })

/-- R31, R33: writes to CTRL and STATUS, whatever BUSY is. -/
def Obligations.ControlAndStatusWrites : Prop :=
  ∀ (s : State) (v : Word) (rest : List Turn),
    (s.agenda = .host ⟨.write, .reg, 0x004, 32, v⟩ :: rest →
      step s = .next { s with agenda := rest, ctrlIE := v.getLsbD 0 }) ∧
    (s.agenda = .host ⟨.write, .reg, 0x00C, 32, v⟩ :: rest → ∃ t, step s = .next t ∧
      t = { s with
        agenda := rest, done := t.done, err := t.err, errcode := t.errcode, werr := t.werr, aerr := t.aerr } ∧
      (t.done = true ↔ s.done = true ∧ v.getLsbD 1 = false) ∧
      (t.err = true ↔ s.err = true ∧ v.getLsbD 2 = false) ∧
      (v.getLsbD 2 = true → t.errcode = none) ∧ (v.getLsbD 2 = false → t.errcode = s.errcode) ∧
      (t.werr = true ↔ s.werr = true ∧ v.getLsbD 8 = false) ∧
      (t.aerr = true ↔ s.aerr = true ∧ v.getLsbD 9 = false))

/-- R31, R33, R38, R261: the words that STATUS, CTRL and ROUND read as, bit by bit. -/
def Obligations.StatusControlAndRoundFields : Prop :=
  ∀ s : State,
    s.statusWord.getLsbD 0 = s.busy ∧ s.statusWord.getLsbD 1 = s.done ∧ s.statusWord.getLsbD 2 = s.err ∧
    s.statusWord.extractLsb' 4 3 = (match s.errcode with
      | none => 0
      | some .lengthOverflow => 1
      | some .lengthRange => 2
      | some .blockRange => 3
      | some .illegalCommand => 4) ∧
    s.statusWord.getLsbD 8 = s.werr ∧ s.statusWord.getLsbD 9 = s.aerr ∧
    s.statusWord.getLsbD 3 = false ∧ s.statusWord.getLsbD 7 = false ∧
    (∀ i, 10 ≤ i → s.statusWord.getLsbD i = false) ∧
    s.ctrlWord.getLsbD 0 = s.ctrlIE ∧ (∀ i, 1 ≤ i → s.ctrlWord.getLsbD i = false) ∧
    s.roundWord.toNat = s.round.toNat

/-! ### Host reads -/

/-- R39, R40, R67: what a register read returns, for every offset whose value is specified (every offset while BUSY = 0). -/
def Obligations.RegisterReadsFollowTheMap : Prop :=
  ∀ (s : State) (off : Nat) (rest : List Turn), off % 4 = 0 → off ≤ 0xFFC → s.busy = false ∨ ¬UnsettledOffset off →
    s.agenda = .host ⟨.read, .reg, off, 32, 0⟩ :: rest →
    ∃ x : Word, step s = .next { s with agenda := rest, answers := .u32 x :: s.answers } ∧
      (off = 0x000 → x = 0x53323536) ∧ (off = 0x004 → x = s.ctrlWord) ∧ (off = 0x008 → x = s.cmd) ∧
      (off = 0x00C → x = s.statusWord) ∧ (off = 0x010 → x = s.lenLo) ∧ (off = 0x014 → x = s.lenHi) ∧
      (off = 0x018 → x = s.blkidx) ∧ (off = 0x01C → x = s.nblk) ∧ (off = 0x020 → x = s.roundWord) ∧
      (off = 0x024 → x = s.msgCap) ∧
      (∀ k : Fin 8, off = 0x040 + 4 * k.val → x = s.h[k.val]) ∧
      (∀ k : Fin 8, off = 0x060 + 4 * k.val → x = s.wv[k.val]) ∧
      (∀ k : Fin 16, off = 0x080 + 4 * k.val → x = s.blk[k.val]) ∧
      (∀ i : Fin 64, off = 0x100 + 4 * i.val → x = s.w[i.val]) ∧
      (∀ i : Fin 64, off = 0x200 + 4 * i.val → x = roundConstants[i.val]) ∧
      (∀ k : Fin 8, off = 0x300 + 4 * k.val → x = initialHash[k.val]) ∧
      (∀ k : Fin 8, off = 0x320 + 4 * k.val → x = s.dig[k.val]) ∧
      ((0x028 ≤ off ∧ off < 0x040) ∨ (0x0C0 ≤ off ∧ off < 0x100) ∨ 0x340 ≤ off → x = 0)

/-- R37: NBLK is a function of LEN alone, and reads so whatever BUSY is; a write to it is ignored; it is 1 at reset. -/
def Obligations.NblkReadsTheBlockCount : Prop :=
  (∀ (s : State) (rest : List Turn), s.agenda = .host ⟨.read, .reg, 0x01C, 32, 0⟩ :: rest →
    ∃ x : Word, step s = .next { s with agenda := rest, answers := .u32 x :: s.answers } ∧
      (s.len < 2 ^ 61 → x.toNat = ((s.len + 8) / 64 + 1) % 2 ^ 32) ∧ (2 ^ 61 ≤ s.len → x = 0)) ∧
  (∀ (s : State) (v : Word) (rest : List Turn), s.agenda = .host ⟨.write, .reg, 0x01C, 32, v⟩ :: rest →
    step s = .next { s with agenda := rest }) ∧
  State.reset.nblk = 1

/-- R67, U1: a read, while BUSY = 1, of a register that the pending command may write returns some word, and changes no
register; the word is a free value. -/
def Obligations.UnsettledReadsWhileBusy : Prop :=
  ∀ (s : State) (off : Nat) (rest : List Turn), off % 4 = 0 → s.busy = true → UnsettledOffset off →
    s.agenda = .host ⟨.read, .reg, off, 32, 0⟩ :: rest →
    ∃ x : Word, step s = .next { s with agenda := rest, draws := s.draws + 1, answers := .u32 x :: s.answers }

/-- R73: no read of any REG offset or MSG address has a side effect on any register, but for AERR after a bad MSG
access (R66). -/
def Obligations.ReadsHaveNoSideEffect : Prop :=
  ∀ (s t : State) (x : Txn) (rest : List Turn), x.dir = .read → s.agenda = .host x :: rest → step s = .next t →
    t = { s with agenda := rest, aerr := t.aerr, draws := t.draws, answers := t.answers } ∧
    (∃ y, t.answers = y :: s.answers) ∧ (x.space = .reg ∨ MsgInRange s x → t.aerr = s.aerr)

/-- A host access that the interface does not have is refused, and every line of the host notation (R102) is an access that it
has. R61 and U10 ask for the refusal of narrow and misaligned REG accesses. That an offset past 0xFFC, a MSG width other than 8
and 32 and an 8-bit write of more than a u8 are refused as well is the model's reading of R61 and R62 (DEDUCED, log entry
10). -/
def Obligations.InexpressibleAccessesAreRefused : Prop :=
  ∀ (s : State) (x : Txn) (rest : List Turn), s.agenda = .host x :: rest →
    (x.space = .reg → x.width ≠ 32 ∨ x.addr % 4 ≠ 0 ∨ 0xFFC < x.addr → step s = .refused .inexpressibleAccess) ∧
    (x.space = .msg → x.width ≠ 8 → x.width ≠ 32 → step s = .refused .inexpressibleAccess) ∧
    (x.space = .msg → x.dir = .write → x.width = 8 → 256 ≤ x.data.toNat → step s = .refused .inexpressibleAccess) ∧
    (∀ l : HostLine, x = l.txn → ∃ t, step s = .next t)

/-! ### The message buffer -/

/-- R63: byte accesses in range. -/
def Obligations.MsgByteAccesses : Prop :=
  ∀ (s : State) (a : Nat) (v : Word) (rest : List Turn), a < s.msgCap.toNat →
    (s.busy = false → v.toNat < 256 → s.agenda = .host ⟨.write, .msg, a, 8, v⟩ :: rest →
      ∃ m, step s = .next { s with agenda := rest, msg := m } ∧
        ({ s with agenda := rest, msg := m } : State).msgByte a = v.setWidth 8 ∧
        ∀ x, x ≠ a → ({ s with agenda := rest, msg := m } : State).msgByte x = s.msgByte x) ∧
    (s.agenda = .host ⟨.read, .msg, a, 8, 0⟩ :: rest →
      step s = .next { s with agenda := rest, answers := .u8 (s.msgByte a) :: s.answers })

/-- R64 and R65: aligned word accesses in range are big-endian, and see exactly the bytes that byte accesses see; and MSG
word k is schedule word W[k] of block 0 whenever 4k + 3 < L. -/
def Obligations.MsgWordAccessesAreBigEndian : Prop :=
  (∀ (s : State) (k : Fin 16), 4 * k.val + 3 < s.len →
    (expandBlock (padBlock s.msgByte s.len 0))[k.val] = s.msgWord (4 * k.val)) ∧
  ∀ (s : State) (a : Nat) (v : Word) (rest : List Turn), a % 4 = 0 → a + 4 ≤ s.msgCap.toNat →
    (s.busy = false → s.agenda = .host ⟨.write, .msg, a, 32, v⟩ :: rest →
      ∃ t, step s = .next t ∧ t = { s with agenda := rest, msg := t.msg } ∧
        t.msgByte a = v.extractLsb' 24 8 ∧ t.msgByte (a + 1) = v.extractLsb' 16 8 ∧
        t.msgByte (a + 2) = v.extractLsb' 8 8 ∧ t.msgByte (a + 3) = v.extractLsb' 0 8 ∧
        ∀ x, x < a ∨ a + 4 ≤ x → t.msgByte x = s.msgByte x) ∧
    (s.agenda = .host ⟨.read, .msg, a, 32, 0⟩ :: rest →
      ∃ y : Word, step s = .next { s with agenda := rest, answers := .u32 y :: s.answers } ∧
        y.toNat = (s.msgByte a).toNat * 2 ^ 24 + (s.msgByte (a + 1)).toNat * 2 ^ 16 +
          (s.msgByte (a + 2)).toNat * 2 ^ 8 + (s.msgByte (a + 3)).toNat)

/-- R66: misaligned and out-of-range accesses do nothing to MSG, set AERR and not WERR even while BUSY = 1, and read
0. -/
def Obligations.BadMsgAccessesSetAerrOnly : Prop :=
  ∀ (s : State) (a : Nat) (v : Word) (rest : List Turn),
    (a % 4 ≠ 0 ∨ s.msgCap.toNat < a + 4 →
      (s.agenda = .host ⟨.write, .msg, a, 32, v⟩ :: rest → step s = .next { s with agenda := rest, aerr := true }) ∧
      (s.agenda = .host ⟨.read, .msg, a, 32, v⟩ :: rest →
        step s = .next { s with agenda := rest, aerr := true, answers := .u32 0 :: s.answers })) ∧
    (s.msgCap.toNat ≤ a →
      (v.toNat < 256 → s.agenda = .host ⟨.write, .msg, a, 8, v⟩ :: rest →
        step s = .next { s with agenda := rest, aerr := true }) ∧
      (s.agenda = .host ⟨.read, .msg, a, 8, v⟩ :: rest →
        step s = .next { s with agenda := rest, aerr := true, answers := .u8 0 :: s.answers }))

/-- R43, R69: the engine never writes MSG, and a byte of it changes only by a host write to it, in range, while
BUSY = 0. -/
def Obligations.MsgChangesOnlyByHostWrites : Prop :=
  ∀ (s t : State) (a : Nat), step s = .next t → t.msgByte a ≠ s.msgByte a →
    s.busy = false ∧ a < s.msgCap.toNat ∧
    ∃ (x : Txn) (rest : List Turn), s.agenda = .host x :: rest ∧ x.space = .msg ∧ x.dir = .write ∧
      x.addr ≤ a ∧ a < x.addr + x.width / 8

/-! ### Rules about the whole machine -/

/-- R79, R68: while a command is pending no host access changes an input or a result of it, nor the command. -/
def Obligations.InputsStayFixedWhileBusy : Prop :=
  ∀ (s t : State) (x : Txn) (rest : List Turn), s.busy = true → s.agenda = .host x :: rest → step s = .next t →
    t.busy = true ∧ t.pending = s.pending ∧ t.cmd = s.cmd ∧ t.lenLo = s.lenLo ∧ t.lenHi = s.lenHi ∧
    t.blkidx = s.blkidx ∧ t.h = s.h ∧ t.wv = s.wv ∧ t.blk = s.blk ∧ t.w = s.w ∧ t.dig = s.dig ∧ t.round = s.round ∧
    t.msgCap = s.msgCap ∧ ∀ a, t.msgByte a = s.msgByte a

/-- R24, R26, R29, R38: WV, W, DIG and ROUND change only when the engine completes a command with success, or by
reset. -/
def Obligations.ReadOnlyResultsChangeOnlyByCommands : Prop :=
  ∀ s t : State, step s = .next t → t.wv ≠ s.wv ∨ t.w ≠ s.w ∨ t.dig ≠ s.dig ∨ t.round ≠ s.round →
    (s.busy = true ∧ t.busy = false ∧ t.done = true) ∨ ∃ rest, s.agenda = .reset :: rest

/-- R264, R265: WERR rises only by a host write that is dropped while BUSY = 1 (one of the writes of R68), and AERR only by a
misaligned or out-of-range MSG access (R66); each is sticky until cleared by W1C or reset. -/
def Obligations.WerrAndAerrAreSticky : Prop :=
  ∀ s t : State, step s = .next t →
    (s.werr = true → t.werr = false →
      (∃ v rest, s.agenda = .host ⟨.write, .reg, 0x00C, 32, v⟩ :: rest ∧ v.getLsbD 8 = true) ∨
        ∃ rest, s.agenda = .reset :: rest) ∧
    (s.aerr = true → t.aerr = false →
      (∃ v rest, s.agenda = .host ⟨.write, .reg, 0x00C, 32, v⟩ :: rest ∧ v.getLsbD 9 = true) ∨
        ∃ rest, s.agenda = .reset :: rest) ∧
    (s.werr = false → t.werr = true → s.busy = true ∧ ∃ x rest, s.agenda = .host x :: rest ∧ x.dir = .write ∧
      ((x.space = .reg ∧ GuardedOffset x.addr) ∨ (x.space = .msg ∧ MsgInRange s x))) ∧
    (s.aerr = false → t.aerr = true → ∃ x rest, s.agenda = .host x :: rest ∧ x.space = .msg ∧ ¬MsgInRange s x)

/-- R41: IRQ = CTRL.IE and (STATUS.DONE or STATUS.ERR), in terms of the words that CTRL and STATUS read as. -/
def Obligations.IrqIsEnabledCompletion : Prop :=
  ∀ s : State, s.irq = true ↔
    s.ctrlWord.getLsbD 0 = true ∧ (s.statusWord.getLsbD 1 = true ∨ s.statusWord.getLsbD 2 = true)

/-- R266, R269: an enabled interrupt rises at every completion, with success or with an error, and falls at the host's
acknowledgement, at the next acceptance and at reset. -/
def Obligations.InterruptRisesAndFalls : Prop :=
  ∀ (s : State) (rest : List Turn),
    (∀ v, s.busy = true → s.pending = some v → s.agenda = .engine :: rest →
      ∃ t, step s = .next t ∧ t.irq = s.ctrlIE) ∧
    (∀ v, v.getLsbD 1 = true → v.getLsbD 2 = true → s.agenda = .host ⟨.write, .reg, 0x00C, 32, v⟩ :: rest →
      ∃ t, step s = .next t ∧ t.irq = false) ∧
    (∀ v, s.busy = false → s.agenda = .host ⟨.write, .reg, 0x008, 32, v⟩ :: rest →
      ∃ t, step s = .next t ∧ t.irq = false) ∧
    (s.agenda = .reset :: rest → ∃ t, step s = .next t ∧ t.irq = false)

/-- Program P5 (R76, R68): the host's write to H0 and the engine's ONE_SHOT in either order. Both ends are admitted, the
digest is the same in both, and only the host's own write is at risk. -/
def Obligations.HostWriteRacesWithOneShot : Prop :=
  ∀ (s : State) (v : Word), s.busy = true → s.pending = some 0x00000006 → s.len ≤ s.msgCap.toNat →
    ∃ t u,
      run 2 { s with agenda := [.engine, .host ⟨.write, .reg, 0x040, 32, v⟩] } = .next t ∧
      run 2 { s with agenda := [.host ⟨.write, .reg, 0x040, 32, v⟩, .engine] } = .next u ∧
      t.dig = u.dig ∧ t.h[0] = v ∧ t.werr = s.werr ∧ u.h = u.dig ∧ u.werr = true

/-! ### Reset and the invariant -/

/-- R290, R291, R293: the reset input, even while BUSY = 1, sets every register to its reset value, abandons the pending
command and leaves MSG and MSGCAP alone. -/
def Obligations.ResetSetsEveryRegister : Prop :=
  ∀ (s : State) (rest : List Turn), s.agenda = .reset :: rest →
    ∃ t, step s = .next t ∧ t.ctrlIE = false ∧ t.cmd = 0 ∧ t.statusWord = 0 ∧ t.busy = false ∧ t.done = false ∧
      t.err = false ∧ t.errcode = none ∧ t.werr = false ∧ t.aerr = false ∧ t.lenLo = 0 ∧ t.lenHi = 0 ∧ t.blkidx = 0 ∧
      t.nblk = 1 ∧ t.round = 0 ∧ t.h = initialHash ∧ (∀ k : Fin 8, t.wv[k.val] = 0) ∧ (∀ k : Fin 16, t.blk[k.val] = 0) ∧
      (∀ i : Fin 64, t.w[i.val] = 0) ∧ (∀ k : Fin 8, t.dig[k.val] = 0) ∧ t.pending = none ∧ t.irq = false ∧
      t.msgCap = s.msgCap ∧ t.msg = s.msg ∧ (∀ a, t.msgByte a = s.msgByte a) ∧ t.powerOn = s.powerOn ∧
      t.draws = s.draws ∧ t.agenda = rest ∧ t.answers = s.answers

/-- R45: the state right after reset. The value of MSGCAP there is the model's (log entry 1); only its legality (R10) is
said. -/
def Obligations.ResetStateValues : Prop :=
  let s := State.reset
  s.ctrlWord = 0 ∧ s.cmd = 0 ∧ s.statusWord = 0 ∧ s.lenLo = 0 ∧ s.lenHi = 0 ∧ s.blkidx = 0 ∧ s.nblk = 1 ∧
    s.roundWord = 0 ∧ Config.LegalMsgCap s.msgCap.toNat ∧ s.h = initialHash ∧ s.wv.toList = List.replicate 8 0 ∧
    s.blk.toList = List.replicate 16 0 ∧ s.w.toList = List.replicate 64 0 ∧ s.dig.toList = List.replicate 8 0 ∧
    s.pending = none ∧ s.irq = false ∧ s.msg = []

/-- The state right after reset meets the invariant. -/
def Obligations.ResetMeetsTheInvariant : Prop := State.reset.Inv

/-- Every step keeps the invariant: legal MSG_CAP (R10), canonical MSG in range (R62), PENDING valid exactly while BUSY = 1
and equal to CMD (R42), DONE and ERR exclusive and 0 while busy (R33, R93), ERRCODE set exactly when ERR is (R33, R98), ROUND
0 or 64 (R273). -/
def Obligations.EveryStepKeepsTheInvariant : Prop :=
  ∀ s t : State, s.Inv → step s = .next t → t.Inv

/-- R271: from a state that meets the invariant no step finds an internal invariant violation, and the host is turned away
only for an access that the interface does not have. -/
def Obligations.NoInternalViolationIsReachable : Prop :=
  ∀ s : State, s.Inv →
    (∀ f, step s ≠ .fault f) ∧
    ∀ r, step s = .refused r → ∃ x rest, s.agenda = .host x :: rest ∧ x.decode = none
end

