-- ==== Sys2Proof/Laws/State.lean ====
section
/-! SUPPORT. One lemma per field per named update of the state, each true by rfl, so that no proof unfolds a record
update. -/

namespace Sys2Proof.Machine

/-! ### `State.succeed` -/
@[simp] theorem State.succeed_ctrlIE (s : State) : s.succeed.ctrlIE = s.ctrlIE := rfl
@[simp] theorem State.succeed_cmd (s : State) : s.succeed.cmd = s.cmd := rfl
@[simp] theorem State.succeed_busy (s : State) : s.succeed.busy = false := rfl
@[simp] theorem State.succeed_done (s : State) : s.succeed.done = true := rfl
@[simp] theorem State.succeed_err (s : State) : s.succeed.err = s.err := rfl
@[simp] theorem State.succeed_errcode (s : State) : s.succeed.errcode = s.errcode := rfl
@[simp] theorem State.succeed_werr (s : State) : s.succeed.werr = s.werr := rfl
@[simp] theorem State.succeed_aerr (s : State) : s.succeed.aerr = s.aerr := rfl
@[simp] theorem State.succeed_lenLo (s : State) : s.succeed.lenLo = s.lenLo := rfl
@[simp] theorem State.succeed_lenHi (s : State) : s.succeed.lenHi = s.lenHi := rfl
@[simp] theorem State.succeed_blkidx (s : State) : s.succeed.blkidx = s.blkidx := rfl
@[simp] theorem State.succeed_round (s : State) : s.succeed.round = s.round := rfl
@[simp] theorem State.succeed_msgCap (s : State) : s.succeed.msgCap = s.msgCap := rfl
@[simp] theorem State.succeed_h (s : State) : s.succeed.h = s.h := rfl
@[simp] theorem State.succeed_wv (s : State) : s.succeed.wv = s.wv := rfl
@[simp] theorem State.succeed_blk (s : State) : s.succeed.blk = s.blk := rfl
@[simp] theorem State.succeed_w (s : State) : s.succeed.w = s.w := rfl
@[simp] theorem State.succeed_dig (s : State) : s.succeed.dig = s.dig := rfl
@[simp] theorem State.succeed_pending (s : State) : s.succeed.pending = none := rfl
@[simp] theorem State.succeed_msg (s : State) : s.succeed.msg = s.msg := rfl
@[simp] theorem State.succeed_powerOn (s : State) : s.succeed.powerOn = s.powerOn := rfl
@[simp] theorem State.succeed_draws (s : State) : s.succeed.draws = s.draws := rfl
@[simp] theorem State.succeed_agenda (s : State) : s.succeed.agenda = s.agenda := rfl
@[simp] theorem State.succeed_answers (s : State) : s.succeed.answers = s.answers := rfl
@[simp] theorem State.succeed_len (s : State) : s.succeed.len = s.len := rfl
@[simp] theorem State.succeed_msgByte (s : State) (x : Nat) : s.succeed.msgByte x = s.msgByte x := rfl

/-! ### `State.raiseError` -/
@[simp] theorem State.raiseError_ctrlIE (c : CommandError) (s : State) : (s.raiseError c).ctrlIE = s.ctrlIE := rfl
@[simp] theorem State.raiseError_cmd (c : CommandError) (s : State) : (s.raiseError c).cmd = s.cmd := rfl
@[simp] theorem State.raiseError_busy (c : CommandError) (s : State) : (s.raiseError c).busy = false := rfl
@[simp] theorem State.raiseError_done (c : CommandError) (s : State) : (s.raiseError c).done = s.done := rfl
@[simp] theorem State.raiseError_err (c : CommandError) (s : State) : (s.raiseError c).err = true := rfl
@[simp] theorem State.raiseError_errcode (c : CommandError) (s : State) : (s.raiseError c).errcode = some c := rfl
@[simp] theorem State.raiseError_werr (c : CommandError) (s : State) : (s.raiseError c).werr = s.werr := rfl
@[simp] theorem State.raiseError_aerr (c : CommandError) (s : State) : (s.raiseError c).aerr = s.aerr := rfl
@[simp] theorem State.raiseError_lenLo (c : CommandError) (s : State) : (s.raiseError c).lenLo = s.lenLo := rfl
@[simp] theorem State.raiseError_lenHi (c : CommandError) (s : State) : (s.raiseError c).lenHi = s.lenHi := rfl
@[simp] theorem State.raiseError_blkidx (c : CommandError) (s : State) : (s.raiseError c).blkidx = s.blkidx := rfl
@[simp] theorem State.raiseError_round (c : CommandError) (s : State) : (s.raiseError c).round = s.round := rfl
@[simp] theorem State.raiseError_msgCap (c : CommandError) (s : State) : (s.raiseError c).msgCap = s.msgCap := rfl
@[simp] theorem State.raiseError_h (c : CommandError) (s : State) : (s.raiseError c).h = s.h := rfl
@[simp] theorem State.raiseError_wv (c : CommandError) (s : State) : (s.raiseError c).wv = s.wv := rfl
@[simp] theorem State.raiseError_blk (c : CommandError) (s : State) : (s.raiseError c).blk = s.blk := rfl
@[simp] theorem State.raiseError_w (c : CommandError) (s : State) : (s.raiseError c).w = s.w := rfl
@[simp] theorem State.raiseError_dig (c : CommandError) (s : State) : (s.raiseError c).dig = s.dig := rfl
@[simp] theorem State.raiseError_pending (c : CommandError) (s : State) : (s.raiseError c).pending = none := rfl
@[simp] theorem State.raiseError_msg (c : CommandError) (s : State) : (s.raiseError c).msg = s.msg := rfl
@[simp] theorem State.raiseError_powerOn (c : CommandError) (s : State) : (s.raiseError c).powerOn = s.powerOn := rfl
@[simp] theorem State.raiseError_draws (c : CommandError) (s : State) : (s.raiseError c).draws = s.draws := rfl
@[simp] theorem State.raiseError_agenda (c : CommandError) (s : State) : (s.raiseError c).agenda = s.agenda := rfl
@[simp] theorem State.raiseError_answers (c : CommandError) (s : State) : (s.raiseError c).answers = s.answers := rfl
@[simp] theorem State.raiseError_len (c : CommandError) (s : State) : (s.raiseError c).len = s.len := rfl
@[simp] theorem State.raiseError_msgByte (c : CommandError) (s : State) (x : Nat) : (s.raiseError c).msgByte x = s.msgByte x := rfl

/-! ### `State.accept` -/
@[simp] theorem State.accept_ctrlIE (v : Word) (s : State) : (s.accept v).ctrlIE = s.ctrlIE := rfl
@[simp] theorem State.accept_cmd (v : Word) (s : State) : (s.accept v).cmd = v := rfl
@[simp] theorem State.accept_busy (v : Word) (s : State) : (s.accept v).busy = true := rfl
@[simp] theorem State.accept_done (v : Word) (s : State) : (s.accept v).done = false := rfl
@[simp] theorem State.accept_err (v : Word) (s : State) : (s.accept v).err = false := rfl
@[simp] theorem State.accept_errcode (v : Word) (s : State) : (s.accept v).errcode = none := rfl
@[simp] theorem State.accept_werr (v : Word) (s : State) : (s.accept v).werr = s.werr := rfl
@[simp] theorem State.accept_aerr (v : Word) (s : State) : (s.accept v).aerr = s.aerr := rfl
@[simp] theorem State.accept_lenLo (v : Word) (s : State) : (s.accept v).lenLo = s.lenLo := rfl
@[simp] theorem State.accept_lenHi (v : Word) (s : State) : (s.accept v).lenHi = s.lenHi := rfl
@[simp] theorem State.accept_blkidx (v : Word) (s : State) : (s.accept v).blkidx = s.blkidx := rfl
@[simp] theorem State.accept_round (v : Word) (s : State) : (s.accept v).round = s.round := rfl
@[simp] theorem State.accept_msgCap (v : Word) (s : State) : (s.accept v).msgCap = s.msgCap := rfl
@[simp] theorem State.accept_h (v : Word) (s : State) : (s.accept v).h = s.h := rfl
@[simp] theorem State.accept_wv (v : Word) (s : State) : (s.accept v).wv = s.wv := rfl
@[simp] theorem State.accept_blk (v : Word) (s : State) : (s.accept v).blk = s.blk := rfl
@[simp] theorem State.accept_w (v : Word) (s : State) : (s.accept v).w = s.w := rfl
@[simp] theorem State.accept_dig (v : Word) (s : State) : (s.accept v).dig = s.dig := rfl
@[simp] theorem State.accept_pending (v : Word) (s : State) : (s.accept v).pending = some v := rfl
@[simp] theorem State.accept_msg (v : Word) (s : State) : (s.accept v).msg = s.msg := rfl
@[simp] theorem State.accept_powerOn (v : Word) (s : State) : (s.accept v).powerOn = s.powerOn := rfl
@[simp] theorem State.accept_draws (v : Word) (s : State) : (s.accept v).draws = s.draws := rfl
@[simp] theorem State.accept_agenda (v : Word) (s : State) : (s.accept v).agenda = s.agenda := rfl
@[simp] theorem State.accept_answers (v : Word) (s : State) : (s.accept v).answers = s.answers := rfl
@[simp] theorem State.accept_len (v : Word) (s : State) : (s.accept v).len = s.len := rfl
@[simp] theorem State.accept_msgByte (v : Word) (s : State) (x : Nat) : (s.accept v).msgByte x = s.msgByte x := rfl

/-! ### `State.dropWrite` -/
@[simp] theorem State.dropWrite_ctrlIE (s : State) : s.dropWrite.ctrlIE = s.ctrlIE := rfl
@[simp] theorem State.dropWrite_cmd (s : State) : s.dropWrite.cmd = s.cmd := rfl
@[simp] theorem State.dropWrite_busy (s : State) : s.dropWrite.busy = s.busy := rfl
@[simp] theorem State.dropWrite_done (s : State) : s.dropWrite.done = s.done := rfl
@[simp] theorem State.dropWrite_err (s : State) : s.dropWrite.err = s.err := rfl
@[simp] theorem State.dropWrite_errcode (s : State) : s.dropWrite.errcode = s.errcode := rfl
@[simp] theorem State.dropWrite_werr (s : State) : s.dropWrite.werr = true := rfl
@[simp] theorem State.dropWrite_aerr (s : State) : s.dropWrite.aerr = s.aerr := rfl
@[simp] theorem State.dropWrite_lenLo (s : State) : s.dropWrite.lenLo = s.lenLo := rfl
@[simp] theorem State.dropWrite_lenHi (s : State) : s.dropWrite.lenHi = s.lenHi := rfl
@[simp] theorem State.dropWrite_blkidx (s : State) : s.dropWrite.blkidx = s.blkidx := rfl
@[simp] theorem State.dropWrite_round (s : State) : s.dropWrite.round = s.round := rfl
@[simp] theorem State.dropWrite_msgCap (s : State) : s.dropWrite.msgCap = s.msgCap := rfl
@[simp] theorem State.dropWrite_h (s : State) : s.dropWrite.h = s.h := rfl
@[simp] theorem State.dropWrite_wv (s : State) : s.dropWrite.wv = s.wv := rfl
@[simp] theorem State.dropWrite_blk (s : State) : s.dropWrite.blk = s.blk := rfl
@[simp] theorem State.dropWrite_w (s : State) : s.dropWrite.w = s.w := rfl
@[simp] theorem State.dropWrite_dig (s : State) : s.dropWrite.dig = s.dig := rfl
@[simp] theorem State.dropWrite_pending (s : State) : s.dropWrite.pending = s.pending := rfl
@[simp] theorem State.dropWrite_msg (s : State) : s.dropWrite.msg = s.msg := rfl
@[simp] theorem State.dropWrite_powerOn (s : State) : s.dropWrite.powerOn = s.powerOn := rfl
@[simp] theorem State.dropWrite_draws (s : State) : s.dropWrite.draws = s.draws := rfl
@[simp] theorem State.dropWrite_agenda (s : State) : s.dropWrite.agenda = s.agenda := rfl
@[simp] theorem State.dropWrite_answers (s : State) : s.dropWrite.answers = s.answers := rfl
@[simp] theorem State.dropWrite_len (s : State) : s.dropWrite.len = s.len := rfl
@[simp] theorem State.dropWrite_msgByte (s : State) (x : Nat) : s.dropWrite.msgByte x = s.msgByte x := rfl

/-! ### `State.badAccess` -/
@[simp] theorem State.badAccess_ctrlIE (s : State) : s.badAccess.ctrlIE = s.ctrlIE := rfl
@[simp] theorem State.badAccess_cmd (s : State) : s.badAccess.cmd = s.cmd := rfl
@[simp] theorem State.badAccess_busy (s : State) : s.badAccess.busy = s.busy := rfl
@[simp] theorem State.badAccess_done (s : State) : s.badAccess.done = s.done := rfl
@[simp] theorem State.badAccess_err (s : State) : s.badAccess.err = s.err := rfl
@[simp] theorem State.badAccess_errcode (s : State) : s.badAccess.errcode = s.errcode := rfl
@[simp] theorem State.badAccess_werr (s : State) : s.badAccess.werr = s.werr := rfl
@[simp] theorem State.badAccess_aerr (s : State) : s.badAccess.aerr = true := rfl
@[simp] theorem State.badAccess_lenLo (s : State) : s.badAccess.lenLo = s.lenLo := rfl
@[simp] theorem State.badAccess_lenHi (s : State) : s.badAccess.lenHi = s.lenHi := rfl
@[simp] theorem State.badAccess_blkidx (s : State) : s.badAccess.blkidx = s.blkidx := rfl
@[simp] theorem State.badAccess_round (s : State) : s.badAccess.round = s.round := rfl
@[simp] theorem State.badAccess_msgCap (s : State) : s.badAccess.msgCap = s.msgCap := rfl
@[simp] theorem State.badAccess_h (s : State) : s.badAccess.h = s.h := rfl
@[simp] theorem State.badAccess_wv (s : State) : s.badAccess.wv = s.wv := rfl
@[simp] theorem State.badAccess_blk (s : State) : s.badAccess.blk = s.blk := rfl
@[simp] theorem State.badAccess_w (s : State) : s.badAccess.w = s.w := rfl
@[simp] theorem State.badAccess_dig (s : State) : s.badAccess.dig = s.dig := rfl
@[simp] theorem State.badAccess_pending (s : State) : s.badAccess.pending = s.pending := rfl
@[simp] theorem State.badAccess_msg (s : State) : s.badAccess.msg = s.msg := rfl
@[simp] theorem State.badAccess_powerOn (s : State) : s.badAccess.powerOn = s.powerOn := rfl
@[simp] theorem State.badAccess_draws (s : State) : s.badAccess.draws = s.draws := rfl
@[simp] theorem State.badAccess_agenda (s : State) : s.badAccess.agenda = s.agenda := rfl
@[simp] theorem State.badAccess_answers (s : State) : s.badAccess.answers = s.answers := rfl
@[simp] theorem State.badAccess_len (s : State) : s.badAccess.len = s.len := rfl
@[simp] theorem State.badAccess_msgByte (s : State) (x : Nat) : s.badAccess.msgByte x = s.msgByte x := rfl

/-! ### `State.answer` -/
@[simp] theorem State.answer_ctrlIE (x : Answer) (s : State) : (s.answer x).ctrlIE = s.ctrlIE := rfl
@[simp] theorem State.answer_cmd (x : Answer) (s : State) : (s.answer x).cmd = s.cmd := rfl
@[simp] theorem State.answer_busy (x : Answer) (s : State) : (s.answer x).busy = s.busy := rfl
@[simp] theorem State.answer_done (x : Answer) (s : State) : (s.answer x).done = s.done := rfl
@[simp] theorem State.answer_err (x : Answer) (s : State) : (s.answer x).err = s.err := rfl
@[simp] theorem State.answer_errcode (x : Answer) (s : State) : (s.answer x).errcode = s.errcode := rfl
@[simp] theorem State.answer_werr (x : Answer) (s : State) : (s.answer x).werr = s.werr := rfl
@[simp] theorem State.answer_aerr (x : Answer) (s : State) : (s.answer x).aerr = s.aerr := rfl
@[simp] theorem State.answer_lenLo (x : Answer) (s : State) : (s.answer x).lenLo = s.lenLo := rfl
@[simp] theorem State.answer_lenHi (x : Answer) (s : State) : (s.answer x).lenHi = s.lenHi := rfl
@[simp] theorem State.answer_blkidx (x : Answer) (s : State) : (s.answer x).blkidx = s.blkidx := rfl
@[simp] theorem State.answer_round (x : Answer) (s : State) : (s.answer x).round = s.round := rfl
@[simp] theorem State.answer_msgCap (x : Answer) (s : State) : (s.answer x).msgCap = s.msgCap := rfl
@[simp] theorem State.answer_h (x : Answer) (s : State) : (s.answer x).h = s.h := rfl
@[simp] theorem State.answer_wv (x : Answer) (s : State) : (s.answer x).wv = s.wv := rfl
@[simp] theorem State.answer_blk (x : Answer) (s : State) : (s.answer x).blk = s.blk := rfl
@[simp] theorem State.answer_w (x : Answer) (s : State) : (s.answer x).w = s.w := rfl
@[simp] theorem State.answer_dig (x : Answer) (s : State) : (s.answer x).dig = s.dig := rfl
@[simp] theorem State.answer_pending (x : Answer) (s : State) : (s.answer x).pending = s.pending := rfl
@[simp] theorem State.answer_msg (x : Answer) (s : State) : (s.answer x).msg = s.msg := rfl
@[simp] theorem State.answer_powerOn (x : Answer) (s : State) : (s.answer x).powerOn = s.powerOn := rfl
@[simp] theorem State.answer_draws (x : Answer) (s : State) : (s.answer x).draws = s.draws := rfl
@[simp] theorem State.answer_agenda (x : Answer) (s : State) : (s.answer x).agenda = s.agenda := rfl
@[simp] theorem State.answer_answers (x : Answer) (s : State) : (s.answer x).answers = x :: s.answers := rfl
@[simp] theorem State.answer_len (x : Answer) (s : State) : (s.answer x).len = s.len := rfl
@[simp] theorem State.answer_msgByte (x : Answer) (s : State) (a : Nat) : (s.answer x).msgByte a = s.msgByte a := rfl

/-! ### `State.clearStatus` -/
@[simp] theorem State.clearStatus_ctrlIE (v : Word) (s : State) : (s.clearStatus v).ctrlIE = s.ctrlIE := rfl
@[simp] theorem State.clearStatus_cmd (v : Word) (s : State) : (s.clearStatus v).cmd = s.cmd := rfl
@[simp] theorem State.clearStatus_busy (v : Word) (s : State) : (s.clearStatus v).busy = s.busy := rfl
@[simp] theorem State.clearStatus_done (v : Word) (s : State) :
    (s.clearStatus v).done = (s.done && !v.getLsbD 1) := rfl
@[simp] theorem State.clearStatus_err (v : Word) (s : State) : (s.clearStatus v).err = (s.err && !v.getLsbD 2) := rfl
@[simp] theorem State.clearStatus_errcode (v : Word) (s : State) :
    (s.clearStatus v).errcode = if v.getLsbD 2 then none else s.errcode := rfl
@[simp] theorem State.clearStatus_werr (v : Word) (s : State) :
    (s.clearStatus v).werr = (s.werr && !v.getLsbD 8) := rfl
@[simp] theorem State.clearStatus_aerr (v : Word) (s : State) :
    (s.clearStatus v).aerr = (s.aerr && !v.getLsbD 9) := rfl
@[simp] theorem State.clearStatus_lenLo (v : Word) (s : State) : (s.clearStatus v).lenLo = s.lenLo := rfl
@[simp] theorem State.clearStatus_lenHi (v : Word) (s : State) : (s.clearStatus v).lenHi = s.lenHi := rfl
@[simp] theorem State.clearStatus_blkidx (v : Word) (s : State) : (s.clearStatus v).blkidx = s.blkidx := rfl
@[simp] theorem State.clearStatus_round (v : Word) (s : State) : (s.clearStatus v).round = s.round := rfl
@[simp] theorem State.clearStatus_msgCap (v : Word) (s : State) : (s.clearStatus v).msgCap = s.msgCap := rfl
@[simp] theorem State.clearStatus_h (v : Word) (s : State) : (s.clearStatus v).h = s.h := rfl
@[simp] theorem State.clearStatus_wv (v : Word) (s : State) : (s.clearStatus v).wv = s.wv := rfl
@[simp] theorem State.clearStatus_blk (v : Word) (s : State) : (s.clearStatus v).blk = s.blk := rfl
@[simp] theorem State.clearStatus_w (v : Word) (s : State) : (s.clearStatus v).w = s.w := rfl
@[simp] theorem State.clearStatus_dig (v : Word) (s : State) : (s.clearStatus v).dig = s.dig := rfl
@[simp] theorem State.clearStatus_pending (v : Word) (s : State) : (s.clearStatus v).pending = s.pending := rfl
@[simp] theorem State.clearStatus_msg (v : Word) (s : State) : (s.clearStatus v).msg = s.msg := rfl
@[simp] theorem State.clearStatus_powerOn (v : Word) (s : State) : (s.clearStatus v).powerOn = s.powerOn := rfl
@[simp] theorem State.clearStatus_draws (v : Word) (s : State) : (s.clearStatus v).draws = s.draws := rfl
@[simp] theorem State.clearStatus_agenda (v : Word) (s : State) : (s.clearStatus v).agenda = s.agenda := rfl
@[simp] theorem State.clearStatus_answers (v : Word) (s : State) : (s.clearStatus v).answers = s.answers := rfl
@[simp] theorem State.clearStatus_len (v : Word) (s : State) : (s.clearStatus v).len = s.len := rfl
@[simp] theorem State.clearStatus_msgByte (v : Word) (s : State) (x : Nat) : (s.clearStatus v).msgByte x = s.msgByte x := rfl

/-! ### `State.storeByte` -/
@[simp] theorem State.storeByte_ctrlIE (a : Nat) (v : Byte) (s : State) : (s.storeByte a v).ctrlIE = s.ctrlIE := rfl
@[simp] theorem State.storeByte_cmd (a : Nat) (v : Byte) (s : State) : (s.storeByte a v).cmd = s.cmd := rfl
@[simp] theorem State.storeByte_busy (a : Nat) (v : Byte) (s : State) : (s.storeByte a v).busy = s.busy := rfl
@[simp] theorem State.storeByte_done (a : Nat) (v : Byte) (s : State) : (s.storeByte a v).done = s.done := rfl
@[simp] theorem State.storeByte_err (a : Nat) (v : Byte) (s : State) : (s.storeByte a v).err = s.err := rfl
@[simp] theorem State.storeByte_errcode (a : Nat) (v : Byte) (s : State) :
    (s.storeByte a v).errcode = s.errcode := rfl
@[simp] theorem State.storeByte_werr (a : Nat) (v : Byte) (s : State) : (s.storeByte a v).werr = s.werr := rfl
@[simp] theorem State.storeByte_aerr (a : Nat) (v : Byte) (s : State) : (s.storeByte a v).aerr = s.aerr := rfl
@[simp] theorem State.storeByte_lenLo (a : Nat) (v : Byte) (s : State) : (s.storeByte a v).lenLo = s.lenLo := rfl
@[simp] theorem State.storeByte_lenHi (a : Nat) (v : Byte) (s : State) : (s.storeByte a v).lenHi = s.lenHi := rfl
@[simp] theorem State.storeByte_blkidx (a : Nat) (v : Byte) (s : State) : (s.storeByte a v).blkidx = s.blkidx := rfl
@[simp] theorem State.storeByte_round (a : Nat) (v : Byte) (s : State) : (s.storeByte a v).round = s.round := rfl
@[simp] theorem State.storeByte_msgCap (a : Nat) (v : Byte) (s : State) : (s.storeByte a v).msgCap = s.msgCap := rfl
@[simp] theorem State.storeByte_h (a : Nat) (v : Byte) (s : State) : (s.storeByte a v).h = s.h := rfl
@[simp] theorem State.storeByte_wv (a : Nat) (v : Byte) (s : State) : (s.storeByte a v).wv = s.wv := rfl
@[simp] theorem State.storeByte_blk (a : Nat) (v : Byte) (s : State) : (s.storeByte a v).blk = s.blk := rfl
@[simp] theorem State.storeByte_w (a : Nat) (v : Byte) (s : State) : (s.storeByte a v).w = s.w := rfl
@[simp] theorem State.storeByte_dig (a : Nat) (v : Byte) (s : State) : (s.storeByte a v).dig = s.dig := rfl
@[simp] theorem State.storeByte_pending (a : Nat) (v : Byte) (s : State) :
    (s.storeByte a v).pending = s.pending := rfl
@[simp] theorem State.storeByte_msg (a : Nat) (v : Byte) (s : State) :
    (s.storeByte a v).msg = Memory.write s.msg a v := rfl
@[simp] theorem State.storeByte_powerOn (a : Nat) (v : Byte) (s : State) :
    (s.storeByte a v).powerOn = s.powerOn := rfl
@[simp] theorem State.storeByte_draws (a : Nat) (v : Byte) (s : State) : (s.storeByte a v).draws = s.draws := rfl
@[simp] theorem State.storeByte_agenda (a : Nat) (v : Byte) (s : State) : (s.storeByte a v).agenda = s.agenda := rfl
@[simp] theorem State.storeByte_answers (a : Nat) (v : Byte) (s : State) :
    (s.storeByte a v).answers = s.answers := rfl
@[simp] theorem State.storeByte_len (a : Nat) (v : Byte) (s : State) : (s.storeByte a v).len = s.len := rfl

/-! ### `State.storeWord` -/
@[simp] theorem State.storeWord_ctrlIE (a : Nat) (v : Word) (s : State) : (s.storeWord a v).ctrlIE = s.ctrlIE := rfl
@[simp] theorem State.storeWord_cmd (a : Nat) (v : Word) (s : State) : (s.storeWord a v).cmd = s.cmd := rfl
@[simp] theorem State.storeWord_busy (a : Nat) (v : Word) (s : State) : (s.storeWord a v).busy = s.busy := rfl
@[simp] theorem State.storeWord_done (a : Nat) (v : Word) (s : State) : (s.storeWord a v).done = s.done := rfl
@[simp] theorem State.storeWord_err (a : Nat) (v : Word) (s : State) : (s.storeWord a v).err = s.err := rfl
@[simp] theorem State.storeWord_errcode (a : Nat) (v : Word) (s : State) :
    (s.storeWord a v).errcode = s.errcode := rfl
@[simp] theorem State.storeWord_werr (a : Nat) (v : Word) (s : State) : (s.storeWord a v).werr = s.werr := rfl
@[simp] theorem State.storeWord_aerr (a : Nat) (v : Word) (s : State) : (s.storeWord a v).aerr = s.aerr := rfl
@[simp] theorem State.storeWord_lenLo (a : Nat) (v : Word) (s : State) : (s.storeWord a v).lenLo = s.lenLo := rfl
@[simp] theorem State.storeWord_lenHi (a : Nat) (v : Word) (s : State) : (s.storeWord a v).lenHi = s.lenHi := rfl
@[simp] theorem State.storeWord_blkidx (a : Nat) (v : Word) (s : State) : (s.storeWord a v).blkidx = s.blkidx := rfl
@[simp] theorem State.storeWord_round (a : Nat) (v : Word) (s : State) : (s.storeWord a v).round = s.round := rfl
@[simp] theorem State.storeWord_msgCap (a : Nat) (v : Word) (s : State) : (s.storeWord a v).msgCap = s.msgCap := rfl
@[simp] theorem State.storeWord_h (a : Nat) (v : Word) (s : State) : (s.storeWord a v).h = s.h := rfl
@[simp] theorem State.storeWord_wv (a : Nat) (v : Word) (s : State) : (s.storeWord a v).wv = s.wv := rfl
@[simp] theorem State.storeWord_blk (a : Nat) (v : Word) (s : State) : (s.storeWord a v).blk = s.blk := rfl
@[simp] theorem State.storeWord_w (a : Nat) (v : Word) (s : State) : (s.storeWord a v).w = s.w := rfl
@[simp] theorem State.storeWord_dig (a : Nat) (v : Word) (s : State) : (s.storeWord a v).dig = s.dig := rfl
@[simp] theorem State.storeWord_pending (a : Nat) (v : Word) (s : State) :
    (s.storeWord a v).pending = s.pending := rfl
@[simp] theorem State.storeWord_msg (a : Nat) (v : Word) (s : State) :
    (s.storeWord a v).msg = Memory.writeWord s.msg a v := rfl
@[simp] theorem State.storeWord_powerOn (a : Nat) (v : Word) (s : State) :
    (s.storeWord a v).powerOn = s.powerOn := rfl
@[simp] theorem State.storeWord_draws (a : Nat) (v : Word) (s : State) : (s.storeWord a v).draws = s.draws := rfl
@[simp] theorem State.storeWord_agenda (a : Nat) (v : Word) (s : State) : (s.storeWord a v).agenda = s.agenda := rfl
@[simp] theorem State.storeWord_answers (a : Nat) (v : Word) (s : State) :
    (s.storeWord a v).answers = s.answers := rfl
@[simp] theorem State.storeWord_len (a : Nat) (v : Word) (s : State) : (s.storeWord a v).len = s.len := rfl

/-! ### `State.loadBlock` -/
@[simp] theorem State.loadBlock_ctrlIE (j : Nat) (s : State) : (s.loadBlock j).ctrlIE = s.ctrlIE := rfl
@[simp] theorem State.loadBlock_cmd (j : Nat) (s : State) : (s.loadBlock j).cmd = s.cmd := rfl
@[simp] theorem State.loadBlock_busy (j : Nat) (s : State) : (s.loadBlock j).busy = s.busy := rfl
@[simp] theorem State.loadBlock_done (j : Nat) (s : State) : (s.loadBlock j).done = s.done := rfl
@[simp] theorem State.loadBlock_err (j : Nat) (s : State) : (s.loadBlock j).err = s.err := rfl
@[simp] theorem State.loadBlock_errcode (j : Nat) (s : State) : (s.loadBlock j).errcode = s.errcode := rfl
@[simp] theorem State.loadBlock_werr (j : Nat) (s : State) : (s.loadBlock j).werr = s.werr := rfl
@[simp] theorem State.loadBlock_aerr (j : Nat) (s : State) : (s.loadBlock j).aerr = s.aerr := rfl
@[simp] theorem State.loadBlock_lenLo (j : Nat) (s : State) : (s.loadBlock j).lenLo = s.lenLo := rfl
@[simp] theorem State.loadBlock_lenHi (j : Nat) (s : State) : (s.loadBlock j).lenHi = s.lenHi := rfl
@[simp] theorem State.loadBlock_blkidx (j : Nat) (s : State) : (s.loadBlock j).blkidx = s.blkidx := rfl
@[simp] theorem State.loadBlock_round (j : Nat) (s : State) : (s.loadBlock j).round = s.round := rfl
@[simp] theorem State.loadBlock_msgCap (j : Nat) (s : State) : (s.loadBlock j).msgCap = s.msgCap := rfl
@[simp] theorem State.loadBlock_h (j : Nat) (s : State) : (s.loadBlock j).h = s.h := rfl
@[simp] theorem State.loadBlock_wv (j : Nat) (s : State) : (s.loadBlock j).wv = s.wv := rfl
@[simp] theorem State.loadBlock_blk (j : Nat) (s : State) : (s.loadBlock j).blk = padBlock s.msgByte s.len j := rfl
@[simp] theorem State.loadBlock_w (j : Nat) (s : State) : (s.loadBlock j).w = s.w := rfl
@[simp] theorem State.loadBlock_dig (j : Nat) (s : State) : (s.loadBlock j).dig = s.dig := rfl
@[simp] theorem State.loadBlock_pending (j : Nat) (s : State) : (s.loadBlock j).pending = s.pending := rfl
@[simp] theorem State.loadBlock_msg (j : Nat) (s : State) : (s.loadBlock j).msg = s.msg := rfl
@[simp] theorem State.loadBlock_powerOn (j : Nat) (s : State) : (s.loadBlock j).powerOn = s.powerOn := rfl
@[simp] theorem State.loadBlock_draws (j : Nat) (s : State) : (s.loadBlock j).draws = s.draws := rfl
@[simp] theorem State.loadBlock_agenda (j : Nat) (s : State) : (s.loadBlock j).agenda = s.agenda := rfl
@[simp] theorem State.loadBlock_answers (j : Nat) (s : State) : (s.loadBlock j).answers = s.answers := rfl
@[simp] theorem State.loadBlock_len (j : Nat) (s : State) : (s.loadBlock j).len = s.len := rfl
@[simp] theorem State.loadBlock_msgByte (j : Nat) (s : State) (x : Nat) : (s.loadBlock j).msgByte x = s.msgByte x := rfl

/-! ### `State.initHash` -/
@[simp] theorem State.initHash_ctrlIE (s : State) : s.initHash.ctrlIE = s.ctrlIE := rfl
@[simp] theorem State.initHash_cmd (s : State) : s.initHash.cmd = s.cmd := rfl
@[simp] theorem State.initHash_busy (s : State) : s.initHash.busy = s.busy := rfl
@[simp] theorem State.initHash_done (s : State) : s.initHash.done = s.done := rfl
@[simp] theorem State.initHash_err (s : State) : s.initHash.err = s.err := rfl
@[simp] theorem State.initHash_errcode (s : State) : s.initHash.errcode = s.errcode := rfl
@[simp] theorem State.initHash_werr (s : State) : s.initHash.werr = s.werr := rfl
@[simp] theorem State.initHash_aerr (s : State) : s.initHash.aerr = s.aerr := rfl
@[simp] theorem State.initHash_lenLo (s : State) : s.initHash.lenLo = s.lenLo := rfl
@[simp] theorem State.initHash_lenHi (s : State) : s.initHash.lenHi = s.lenHi := rfl
@[simp] theorem State.initHash_blkidx (s : State) : s.initHash.blkidx = s.blkidx := rfl
@[simp] theorem State.initHash_round (s : State) : s.initHash.round = s.round := rfl
@[simp] theorem State.initHash_msgCap (s : State) : s.initHash.msgCap = s.msgCap := rfl
@[simp] theorem State.initHash_h (s : State) : s.initHash.h = initialHash := rfl
@[simp] theorem State.initHash_wv (s : State) : s.initHash.wv = s.wv := rfl
@[simp] theorem State.initHash_blk (s : State) : s.initHash.blk = s.blk := rfl
@[simp] theorem State.initHash_w (s : State) : s.initHash.w = s.w := rfl
@[simp] theorem State.initHash_dig (s : State) : s.initHash.dig = s.dig := rfl
@[simp] theorem State.initHash_pending (s : State) : s.initHash.pending = s.pending := rfl
@[simp] theorem State.initHash_msg (s : State) : s.initHash.msg = s.msg := rfl
@[simp] theorem State.initHash_powerOn (s : State) : s.initHash.powerOn = s.powerOn := rfl
@[simp] theorem State.initHash_draws (s : State) : s.initHash.draws = s.draws := rfl
@[simp] theorem State.initHash_agenda (s : State) : s.initHash.agenda = s.agenda := rfl
@[simp] theorem State.initHash_answers (s : State) : s.initHash.answers = s.answers := rfl
@[simp] theorem State.initHash_len (s : State) : s.initHash.len = s.len := rfl
@[simp] theorem State.initHash_msgByte (s : State) (x : Nat) : s.initHash.msgByte x = s.msgByte x := rfl

/-! ### `State.expandW` -/
@[simp] theorem State.expandW_ctrlIE (s : State) : s.expandW.ctrlIE = s.ctrlIE := rfl
@[simp] theorem State.expandW_cmd (s : State) : s.expandW.cmd = s.cmd := rfl
@[simp] theorem State.expandW_busy (s : State) : s.expandW.busy = s.busy := rfl
@[simp] theorem State.expandW_done (s : State) : s.expandW.done = s.done := rfl
@[simp] theorem State.expandW_err (s : State) : s.expandW.err = s.err := rfl
@[simp] theorem State.expandW_errcode (s : State) : s.expandW.errcode = s.errcode := rfl
@[simp] theorem State.expandW_werr (s : State) : s.expandW.werr = s.werr := rfl
@[simp] theorem State.expandW_aerr (s : State) : s.expandW.aerr = s.aerr := rfl
@[simp] theorem State.expandW_lenLo (s : State) : s.expandW.lenLo = s.lenLo := rfl
@[simp] theorem State.expandW_lenHi (s : State) : s.expandW.lenHi = s.lenHi := rfl
@[simp] theorem State.expandW_blkidx (s : State) : s.expandW.blkidx = s.blkidx := rfl
@[simp] theorem State.expandW_round (s : State) : s.expandW.round = s.round := rfl
@[simp] theorem State.expandW_msgCap (s : State) : s.expandW.msgCap = s.msgCap := rfl
@[simp] theorem State.expandW_h (s : State) : s.expandW.h = s.h := rfl
@[simp] theorem State.expandW_wv (s : State) : s.expandW.wv = s.wv := rfl
@[simp] theorem State.expandW_blk (s : State) : s.expandW.blk = s.blk := rfl
@[simp] theorem State.expandW_w (s : State) : s.expandW.w = expandBlock s.blk := rfl
@[simp] theorem State.expandW_dig (s : State) : s.expandW.dig = s.dig := rfl
@[simp] theorem State.expandW_pending (s : State) : s.expandW.pending = s.pending := rfl
@[simp] theorem State.expandW_msg (s : State) : s.expandW.msg = s.msg := rfl
@[simp] theorem State.expandW_powerOn (s : State) : s.expandW.powerOn = s.powerOn := rfl
@[simp] theorem State.expandW_draws (s : State) : s.expandW.draws = s.draws := rfl
@[simp] theorem State.expandW_agenda (s : State) : s.expandW.agenda = s.agenda := rfl
@[simp] theorem State.expandW_answers (s : State) : s.expandW.answers = s.answers := rfl
@[simp] theorem State.expandW_len (s : State) : s.expandW.len = s.len := rfl
@[simp] theorem State.expandW_msgByte (s : State) (x : Nat) : s.expandW.msgByte x = s.msgByte x := rfl

/-! ### `State.compressW` -/
@[simp] theorem State.compressW_ctrlIE (s : State) : s.compressW.ctrlIE = s.ctrlIE := rfl
@[simp] theorem State.compressW_cmd (s : State) : s.compressW.cmd = s.cmd := rfl
@[simp] theorem State.compressW_busy (s : State) : s.compressW.busy = s.busy := rfl
@[simp] theorem State.compressW_done (s : State) : s.compressW.done = s.done := rfl
@[simp] theorem State.compressW_err (s : State) : s.compressW.err = s.err := rfl
@[simp] theorem State.compressW_errcode (s : State) : s.compressW.errcode = s.errcode := rfl
@[simp] theorem State.compressW_werr (s : State) : s.compressW.werr = s.werr := rfl
@[simp] theorem State.compressW_aerr (s : State) : s.compressW.aerr = s.aerr := rfl
@[simp] theorem State.compressW_lenLo (s : State) : s.compressW.lenLo = s.lenLo := rfl
@[simp] theorem State.compressW_lenHi (s : State) : s.compressW.lenHi = s.lenHi := rfl
@[simp] theorem State.compressW_blkidx (s : State) : s.compressW.blkidx = s.blkidx := rfl
@[simp] theorem State.compressW_round (s : State) : s.compressW.round = 64 := rfl
@[simp] theorem State.compressW_msgCap (s : State) : s.compressW.msgCap = s.msgCap := rfl
@[simp] theorem State.compressW_h (s : State) : s.compressW.h = addWords s.h (rounds64 s.h s.w) := rfl
@[simp] theorem State.compressW_wv (s : State) : s.compressW.wv = rounds64 s.h s.w := rfl
@[simp] theorem State.compressW_blk (s : State) : s.compressW.blk = s.blk := rfl
@[simp] theorem State.compressW_w (s : State) : s.compressW.w = s.w := rfl
@[simp] theorem State.compressW_dig (s : State) : s.compressW.dig = s.dig := rfl
@[simp] theorem State.compressW_pending (s : State) : s.compressW.pending = s.pending := rfl
@[simp] theorem State.compressW_msg (s : State) : s.compressW.msg = s.msg := rfl
@[simp] theorem State.compressW_powerOn (s : State) : s.compressW.powerOn = s.powerOn := rfl
@[simp] theorem State.compressW_draws (s : State) : s.compressW.draws = s.draws := rfl
@[simp] theorem State.compressW_agenda (s : State) : s.compressW.agenda = s.agenda := rfl
@[simp] theorem State.compressW_answers (s : State) : s.compressW.answers = s.answers := rfl
@[simp] theorem State.compressW_len (s : State) : s.compressW.len = s.len := rfl
@[simp] theorem State.compressW_msgByte (s : State) (x : Nat) : s.compressW.msgByte x = s.msgByte x := rfl

/-! ### `State.serializeH` -/
@[simp] theorem State.serializeH_ctrlIE (s : State) : s.serializeH.ctrlIE = s.ctrlIE := rfl
@[simp] theorem State.serializeH_cmd (s : State) : s.serializeH.cmd = s.cmd := rfl
@[simp] theorem State.serializeH_busy (s : State) : s.serializeH.busy = s.busy := rfl
@[simp] theorem State.serializeH_done (s : State) : s.serializeH.done = s.done := rfl
@[simp] theorem State.serializeH_err (s : State) : s.serializeH.err = s.err := rfl
@[simp] theorem State.serializeH_errcode (s : State) : s.serializeH.errcode = s.errcode := rfl
@[simp] theorem State.serializeH_werr (s : State) : s.serializeH.werr = s.werr := rfl
@[simp] theorem State.serializeH_aerr (s : State) : s.serializeH.aerr = s.aerr := rfl
@[simp] theorem State.serializeH_lenLo (s : State) : s.serializeH.lenLo = s.lenLo := rfl
@[simp] theorem State.serializeH_lenHi (s : State) : s.serializeH.lenHi = s.lenHi := rfl
@[simp] theorem State.serializeH_blkidx (s : State) : s.serializeH.blkidx = s.blkidx := rfl
@[simp] theorem State.serializeH_round (s : State) : s.serializeH.round = s.round := rfl
@[simp] theorem State.serializeH_msgCap (s : State) : s.serializeH.msgCap = s.msgCap := rfl
@[simp] theorem State.serializeH_h (s : State) : s.serializeH.h = s.h := rfl
@[simp] theorem State.serializeH_wv (s : State) : s.serializeH.wv = s.wv := rfl
@[simp] theorem State.serializeH_blk (s : State) : s.serializeH.blk = s.blk := rfl
@[simp] theorem State.serializeH_w (s : State) : s.serializeH.w = s.w := rfl
@[simp] theorem State.serializeH_dig (s : State) : s.serializeH.dig = s.h := rfl
@[simp] theorem State.serializeH_pending (s : State) : s.serializeH.pending = s.pending := rfl
@[simp] theorem State.serializeH_msg (s : State) : s.serializeH.msg = s.msg := rfl
@[simp] theorem State.serializeH_powerOn (s : State) : s.serializeH.powerOn = s.powerOn := rfl
@[simp] theorem State.serializeH_draws (s : State) : s.serializeH.draws = s.draws := rfl
@[simp] theorem State.serializeH_agenda (s : State) : s.serializeH.agenda = s.agenda := rfl
@[simp] theorem State.serializeH_answers (s : State) : s.serializeH.answers = s.answers := rfl
@[simp] theorem State.serializeH_len (s : State) : s.serializeH.len = s.len := rfl
@[simp] theorem State.serializeH_msgByte (s : State) (x : Nat) : s.serializeH.msgByte x = s.msgByte x := rfl

/-! ### `State.hashBlock` -/
@[simp] theorem State.hashBlock_ctrlIE (j : Nat) (s : State) : (s.hashBlock j).ctrlIE = s.ctrlIE := rfl
@[simp] theorem State.hashBlock_cmd (j : Nat) (s : State) : (s.hashBlock j).cmd = s.cmd := rfl
@[simp] theorem State.hashBlock_busy (j : Nat) (s : State) : (s.hashBlock j).busy = s.busy := rfl
@[simp] theorem State.hashBlock_done (j : Nat) (s : State) : (s.hashBlock j).done = s.done := rfl
@[simp] theorem State.hashBlock_err (j : Nat) (s : State) : (s.hashBlock j).err = s.err := rfl
@[simp] theorem State.hashBlock_errcode (j : Nat) (s : State) : (s.hashBlock j).errcode = s.errcode := rfl
@[simp] theorem State.hashBlock_werr (j : Nat) (s : State) : (s.hashBlock j).werr = s.werr := rfl
@[simp] theorem State.hashBlock_aerr (j : Nat) (s : State) : (s.hashBlock j).aerr = s.aerr := rfl
@[simp] theorem State.hashBlock_lenLo (j : Nat) (s : State) : (s.hashBlock j).lenLo = s.lenLo := rfl
@[simp] theorem State.hashBlock_lenHi (j : Nat) (s : State) : (s.hashBlock j).lenHi = s.lenHi := rfl
@[simp] theorem State.hashBlock_blkidx (j : Nat) (s : State) : (s.hashBlock j).blkidx = s.blkidx := rfl
@[simp] theorem State.hashBlock_round (j : Nat) (s : State) : (s.hashBlock j).round = 64 := rfl
@[simp] theorem State.hashBlock_msgCap (j : Nat) (s : State) : (s.hashBlock j).msgCap = s.msgCap := rfl
@[simp] theorem State.hashBlock_h (j : Nat) (s : State) :
    (s.hashBlock j).h = compressBlock s.h (padBlock s.msgByte s.len j) := rfl
@[simp] theorem State.hashBlock_wv (j : Nat) (s : State) :
    (s.hashBlock j).wv = rounds64 s.h (expandBlock (padBlock s.msgByte s.len j)) := rfl
@[simp] theorem State.hashBlock_blk (j : Nat) (s : State) : (s.hashBlock j).blk = padBlock s.msgByte s.len j := rfl
@[simp] theorem State.hashBlock_w (j : Nat) (s : State) :
    (s.hashBlock j).w = expandBlock (padBlock s.msgByte s.len j) := rfl
@[simp] theorem State.hashBlock_dig (j : Nat) (s : State) : (s.hashBlock j).dig = s.dig := rfl
@[simp] theorem State.hashBlock_pending (j : Nat) (s : State) : (s.hashBlock j).pending = s.pending := rfl
@[simp] theorem State.hashBlock_msg (j : Nat) (s : State) : (s.hashBlock j).msg = s.msg := rfl
@[simp] theorem State.hashBlock_powerOn (j : Nat) (s : State) : (s.hashBlock j).powerOn = s.powerOn := rfl
@[simp] theorem State.hashBlock_draws (j : Nat) (s : State) : (s.hashBlock j).draws = s.draws := rfl
@[simp] theorem State.hashBlock_agenda (j : Nat) (s : State) : (s.hashBlock j).agenda = s.agenda := rfl
@[simp] theorem State.hashBlock_answers (j : Nat) (s : State) : (s.hashBlock j).answers = s.answers := rfl
@[simp] theorem State.hashBlock_len (j : Nat) (s : State) : (s.hashBlock j).len = s.len := rfl
@[simp] theorem State.hashBlock_msgByte (j : Nat) (s : State) (x : Nat) : (s.hashBlock j).msgByte x = s.msgByte x := rfl

/-! ### `State.applyReset` -/
@[simp] theorem State.applyReset_ctrlIE (s : State) : s.applyReset.ctrlIE = State.reset.ctrlIE := rfl
@[simp] theorem State.applyReset_cmd (s : State) : s.applyReset.cmd = State.reset.cmd := rfl
@[simp] theorem State.applyReset_busy (s : State) : s.applyReset.busy = State.reset.busy := rfl
@[simp] theorem State.applyReset_done (s : State) : s.applyReset.done = State.reset.done := rfl
@[simp] theorem State.applyReset_err (s : State) : s.applyReset.err = State.reset.err := rfl
@[simp] theorem State.applyReset_errcode (s : State) : s.applyReset.errcode = State.reset.errcode := rfl
@[simp] theorem State.applyReset_werr (s : State) : s.applyReset.werr = State.reset.werr := rfl
@[simp] theorem State.applyReset_aerr (s : State) : s.applyReset.aerr = State.reset.aerr := rfl
@[simp] theorem State.applyReset_lenLo (s : State) : s.applyReset.lenLo = State.reset.lenLo := rfl
@[simp] theorem State.applyReset_lenHi (s : State) : s.applyReset.lenHi = State.reset.lenHi := rfl
@[simp] theorem State.applyReset_blkidx (s : State) : s.applyReset.blkidx = State.reset.blkidx := rfl
@[simp] theorem State.applyReset_round (s : State) : s.applyReset.round = State.reset.round := rfl
@[simp] theorem State.applyReset_msgCap (s : State) : s.applyReset.msgCap = s.msgCap := rfl
@[simp] theorem State.applyReset_h (s : State) : s.applyReset.h = State.reset.h := rfl
@[simp] theorem State.applyReset_wv (s : State) : s.applyReset.wv = State.reset.wv := rfl
@[simp] theorem State.applyReset_blk (s : State) : s.applyReset.blk = State.reset.blk := rfl
@[simp] theorem State.applyReset_w (s : State) : s.applyReset.w = State.reset.w := rfl
@[simp] theorem State.applyReset_dig (s : State) : s.applyReset.dig = State.reset.dig := rfl
@[simp] theorem State.applyReset_pending (s : State) : s.applyReset.pending = State.reset.pending := rfl
@[simp] theorem State.applyReset_msg (s : State) : s.applyReset.msg = s.msg := rfl
@[simp] theorem State.applyReset_powerOn (s : State) : s.applyReset.powerOn = s.powerOn := rfl
@[simp] theorem State.applyReset_draws (s : State) : s.applyReset.draws = s.draws := rfl
@[simp] theorem State.applyReset_agenda (s : State) : s.applyReset.agenda = s.agenda := rfl
@[simp] theorem State.applyReset_answers (s : State) : s.applyReset.answers = s.answers := rfl
@[simp] theorem State.applyReset_msgByte (s : State) (x : Nat) : s.applyReset.msgByte x = s.msgByte x := rfl

end Sys2Proof.Machine
end

