-- ==== Sys2Proof/Laws/Memory.lean ====
section
/-! SUPPORT. The laws of the message buffer: a read after a write, the canonical form, and equal buffers from equal
reads. -/

namespace Sys2Proof.Machine

/-- A read after a write: the written byte at its address, what was there before elsewhere. -/
theorem Memory.read_write (m : Memory) (a : Nat) (v : Byte) (x : Nat) :
    Memory.read (Memory.write m a v) x = if x = a then some v else Memory.read m x := by
  induction m with
  | nil => simp [Memory.write, Memory.read]
  | cons c m ih =>
    obtain ⟨b, y⟩ := c
    simp only [Memory.write]
    split_ifs with h1 h2 h3 <;> simp only [Memory.read]
    · simp_all
    · split_ifs <;> simp_all
    · simp_all
    · split_ifs <;> simp_all
    · split_ifs <;> simp_all
    · rw [ih]
      split_ifs <;> simp_all

@[simp] theorem Memory.read_write_same (m : Memory) (a : Nat) (v : Byte) :
    Memory.read (Memory.write m a v) a = some v := by
  simp [Memory.read_write]

theorem Memory.read_write_other {a x : Nat} (m : Memory) (v : Byte) (h : x ≠ a) :
    Memory.read (Memory.write m a v) x = Memory.read m x := by
  simp [Memory.read_write, h]

/-- The cells of a written buffer: the new one, and old ones. -/
theorem Memory.mem_write {m : Memory} {a : Nat} {v : Byte} {c : Host.Cell} (h : c ∈ Memory.write m a v) :
    c = (a, v) ∨ c ∈ m := by
  induction m with
  | nil => simpa [Memory.write] using h
  | cons d m ih =>
    obtain ⟨b, y⟩ := d
    simp only [Memory.write] at h
    split_ifs at h
    · simpa using h
    · rcases List.mem_cons.mp h with h | h
      · exact .inl h
      · exact .inr (List.mem_cons_of_mem _ h)
    · rcases List.mem_cons.mp h with h | h
      · exact .inr (h ▸ List.mem_cons_self)
      · exact (ih h).imp_right (List.mem_cons_of_mem _)

/-- A write keeps the canonical form. -/
theorem Memory.wf_write {m : Memory} (a : Nat) (v : Byte) (h : Memory.wf m) : Memory.wf (Memory.write m a v) := by
  induction m with
  | nil => simp [Memory.write, Memory.wf]
  | cons d m ih =>
    obtain ⟨b, y⟩ := d
    obtain ⟨hb, hm⟩ := List.pairwise_cons.mp h
    simp only [Memory.write]
    split_ifs with h1 h2
    · refine List.pairwise_cons.mpr ⟨fun c hc => ?_, h⟩
      rcases List.mem_cons.mp hc with rfl | hc
      · exact h1
      · exact h1.trans (hb c hc)
    · exact List.pairwise_cons.mpr ⟨fun c hc => h2 ▸ hb c hc, hm⟩
    · refine List.pairwise_cons.mpr ⟨fun c hc => ?_, ih hm⟩
      rcases Memory.mem_write hc with rfl | hc
      · show b < a
        omega
      · exact hb c hc

/-- The empty buffer, which a state has before any host write, is canonical. -/
theorem Memory.wf_nil : Memory.wf [] := List.Pairwise.nil

/-- An address below every listed one reads as no written byte. -/
theorem Memory.read_of_below {m : Memory} {a : Nat} (h : ∀ c ∈ m, a < c.1) : Memory.read m a = none := by
  induction m with
  | nil => rfl
  | cons d m ih =>
    obtain ⟨b, y⟩ := d
    have hb : a < b := h (b, y) List.mem_cons_self
    simp only [Memory.read, if_neg hb.ne]
    exact ih fun c hc => h c (List.mem_cons_of_mem _ hc)

/-- Canonical buffers that read alike are equal. -/
theorem Memory.ext_read {m n : Memory} (hm : Memory.wf m) (hn : Memory.wf n)
    (h : ∀ a, Memory.read m a = Memory.read n a) : m = n := by
  induction m generalizing n with
  | nil =>
    cases n with
    | nil => rfl
    | cons d n => simpa [Memory.read] using h d.1
  | cons d m ih =>
    obtain ⟨b, y⟩ := d
    obtain ⟨hb, hm'⟩ := List.pairwise_cons.mp hm
    cases n with
    | nil => simpa [Memory.read] using h b
    | cons e n =>
      obtain ⟨b', y'⟩ := e
      obtain ⟨hb', hn'⟩ := List.pairwise_cons.mp hn
      have hle : b = b' := by
        rcases lt_trichotomy b b' with hlt | heq | hgt
        · have h1 := h b
          rw [Memory.read_of_below (m := (b', y') :: n) (a := b)] at h1
          · simp [Memory.read] at h1
          · intro c hc
            rcases List.mem_cons.mp hc with rfl | hc
            · exact hlt
            · exact hlt.trans (hb' c hc)
        · exact heq
        · have h1 := h b'
          rw [Memory.read_of_below (m := (b, y) :: m) (a := b')] at h1
          · simp [Memory.read] at h1
          · intro c hc
            rcases List.mem_cons.mp hc with rfl | hc
            · exact hgt
            · exact hgt.trans (hb c hc)
      subst hle
      have hy : y = y' := by simpa [Memory.read] using h b
      subst hy
      congr 1
      refine ih hm' hn' fun a => ?_
      have h1 := h a
      by_cases hab : a = b
      · subst hab
        rw [Memory.read_of_below hb, Memory.read_of_below hb']
      · simpa [Memory.read, hab] using h1

/-- A read after a word is written: its four bytes, most significant first, and what was there before elsewhere. -/
theorem Memory.read_writeWord (m : Memory) (a : Nat) (v : Word) (x : Nat) :
    Memory.read (Memory.writeWord m a v) x =
      if x = a then some (wordByte v 0) else if x = a + 1 then some (wordByte v 1)
      else if x = a + 2 then some (wordByte v 2) else if x = a + 3 then some (wordByte v 3) else Memory.read m x := by
  simp only [Memory.writeWord, Memory.read_write]
  split_ifs <;> first | rfl | omega

/-- The cells after a word is written: four new ones, and old ones. -/
theorem Memory.mem_writeWord {m : Memory} {a : Nat} {v : Word} {c : Host.Cell} (h : c ∈ Memory.writeWord m a v) :
    (a ≤ c.1 ∧ c.1 < a + 4) ∨ c ∈ m := by
  rw [Memory.writeWord] at h
  rcases Memory.mem_write h with rfl | h
  · exact .inl (by constructor <;> simp)
  rcases Memory.mem_write h with rfl | h
  · exact .inl (by constructor <;> simp)
  rcases Memory.mem_write h with rfl | h
  · exact .inl (by constructor <;> simp)
  rcases Memory.mem_write h with rfl | h
  · exact .inl (by constructor <;> simp)
  exact .inr h

/-- Writing a word keeps the canonical form. -/
theorem Memory.wf_writeWord {m : Memory} (a : Nat) (v : Word) (h : Memory.wf m) : Memory.wf (Memory.writeWord m a v) := by
  rw [Memory.writeWord]
  exact Memory.wf_write _ _ (Memory.wf_write _ _ (Memory.wf_write _ _ (Memory.wf_write _ _ h)))

/-- `MSG[x]` after a byte is stored at `a`. -/
theorem State.storeByte_msgByte (s : State) (a : Nat) (v : Byte) (x : Nat) :
    (s.storeByte a v).msgByte x = if x = a then v else s.msgByte x := by
  simp only [State.msgByte, State.storeByte_msg, State.storeByte_powerOn, Memory.read_write]
  split_ifs <;> rfl

/-- `MSG[x]` after a word is stored at `a`: its four bytes, most significant first, and the others as before. -/
theorem State.storeWord_msgByte (s : State) (a : Nat) (v : Word) (x : Nat) :
    (s.storeWord a v).msgByte x =
      if x = a then wordByte v 0 else if x = a + 1 then wordByte v 1 else if x = a + 2 then wordByte v 2
      else if x = a + 3 then wordByte v 3 else s.msgByte x := by
  simp only [State.msgByte, State.storeWord_msg, State.storeWord_powerOn, Memory.read_writeWord]
  split_ifs <;> rfl

end Sys2Proof.Machine
end

