-- ==== Sys2Proof/Laws/Ops.lean ====
section
/-! SUPPORT. What the shared operations can do: the checks, the completions, the block steps of the engine. -/

namespace Sys2Proof.Machine

/-! ### The checks -/

theorem State.len_eq (s : State) : s.len = s.lenHi.toNat * 2 ^ 32 + s.lenLo.toNat := by
  rw [State.len, BitVec.toNat_append, Nat.shiftLeft_eq, Nat.mul_comm, ← Nat.two_pow_add_eq_or_of_lt s.lenLo.isLt,
    Nat.mul_comm]

theorem State.lengthError_overflow {s : State} (h : 2 ^ 61 ≤ s.len) : s.lengthError = some .lengthOverflow :=
  if_pos h

theorem State.lengthError_range {s : State} (h : s.len < 2 ^ 61) (hc : s.msgCap.toNat < s.len) :
    s.lengthError = some .lengthRange := by
  rw [State.lengthError, if_neg (by omega), if_pos hc]

theorem State.lengthError_none {s : State} (h : s.len < 2 ^ 61) (hc : s.len ≤ s.msgCap.toNat) :
    s.lengthError = none := by
  rw [State.lengthError, if_neg (by omega), if_neg (by omega)]

/-- A length that the buffer can hold is far below 2^61, since MSG_CAP is a 32-bit word. -/
theorem State.len_lt_of_fits {s : State} (hc : s.len ≤ s.msgCap.toNat) : s.len < 2 ^ 32 :=
  hc.trans_lt s.msgCap.isLt

theorem State.lengthError_fits {s : State} (hc : s.len ≤ s.msgCap.toNat) : s.lengthError = none :=
  State.lengthError_none (by have := State.len_lt_of_fits hc; omega) hc

theorem State.blockError_of_length {s : State} {c : CommandError} (h : s.lengthError = some c) :
    s.blockError = some c := by
  simp [State.blockError, h]

theorem State.blockError_range {s : State} (h : s.lengthError = none) (hj : blockCount s.len ≤ s.blkidx.toNat) :
    s.blockError = some .blockRange := by
  simp [State.blockError, h, hj]

theorem State.blockError_none {s : State} (h : s.lengthError = none) (hj : s.blkidx.toNat < blockCount s.len) :
    s.blockError = none := by
  simp only [State.blockError, h]
  rw [if_neg (by omega)]

/-- With no block error the length fits and the index is one of the message's blocks. -/
theorem State.blockError_eq_none {s : State} (h : s.blockError = none) :
    s.lengthError = none ∧ s.blkidx.toNat < blockCount s.len := by
  cases hl : s.lengthError with
  | some c => simp [State.blockError, hl] at h
  | none =>
    refine ⟨rfl, ?_⟩
    by_contra hj
    rw [State.blockError_range hl (by omega)] at h
    cases h

/-- With no length error the length fits in the buffer. -/
theorem State.lengthError_eq_none {s : State} (h : s.lengthError = none) :
    s.len < 2 ^ 61 ∧ s.len ≤ s.msgCap.toNat := by
  by_cases h1 : 2 ^ 61 ≤ s.len
  · rw [State.lengthError_overflow h1] at h; cases h
  by_cases h2 : s.msgCap.toNat < s.len
  · rw [State.lengthError_range (by omega) h2] at h; cases h
  omega

/-! ### Completion -/

theorem KeepsInputs.refl (s : State) : KeepsInputs s s :=
  ⟨rfl, rfl, rfl, rfl, rfl, rfl, rfl, fun _ => rfl, fun _ => rfl, rfl, rfl, rfl, rfl⟩

theorem KeepsInputs.trans {s t u : State} (h : KeepsInputs s t) (k : KeepsInputs t u) : KeepsInputs s u where
  ctrl := k.ctrl.trans h.ctrl
  cmd := k.cmd.trans h.cmd
  werr := k.werr.trans h.werr
  aerr := k.aerr.trans h.aerr
  len_lo := k.len_lo.trans h.len_lo
  len_hi := k.len_hi.trans h.len_hi
  msgcap := k.msgcap.trans h.msgcap
  msg_byte a := (k.msg_byte a).trans (h.msg_byte a)
  msg_written a := (k.msg_written a).trans (h.msg_written a)
  own_fields := ⟨k.own_fields.1.trans h.own_fields.1, k.own_fields.2.1.trans h.own_fields.2.1,
    k.own_fields.2.2.1.trans h.own_fields.2.2.1, k.own_fields.2.2.2.trans h.own_fields.2.2.2⟩

theorem KeepsInputs.succeed (s : State) : KeepsInputs s s.succeed :=
  ⟨rfl, rfl, rfl, rfl, rfl, rfl, rfl, fun _ => rfl, fun _ => rfl, rfl, rfl, rfl, rfl⟩

theorem KeepsInputs.raiseError (c : CommandError) (s : State) : KeepsInputs s (s.raiseError c) :=
  ⟨rfl, rfl, rfl, rfl, rfl, rfl, rfl, fun _ => rfl, fun _ => rfl, rfl, rfl, rfl, rfl⟩

theorem KeepsInputs.loadBlock (j : Nat) (s : State) : KeepsInputs s (s.loadBlock j) :=
  ⟨rfl, rfl, rfl, rfl, rfl, rfl, rfl, fun _ => rfl, fun _ => rfl, rfl, rfl, rfl, rfl⟩

theorem KeepsInputs.initHash (s : State) : KeepsInputs s s.initHash :=
  ⟨rfl, rfl, rfl, rfl, rfl, rfl, rfl, fun _ => rfl, fun _ => rfl, rfl, rfl, rfl, rfl⟩

theorem KeepsInputs.expandW (s : State) : KeepsInputs s s.expandW :=
  ⟨rfl, rfl, rfl, rfl, rfl, rfl, rfl, fun _ => rfl, fun _ => rfl, rfl, rfl, rfl, rfl⟩

theorem KeepsInputs.compressW (s : State) : KeepsInputs s s.compressW :=
  ⟨rfl, rfl, rfl, rfl, rfl, rfl, rfl, fun _ => rfl, fun _ => rfl, rfl, rfl, rfl, rfl⟩

theorem KeepsInputs.serializeH (s : State) : KeepsInputs s s.serializeH :=
  ⟨rfl, rfl, rfl, rfl, rfl, rfl, rfl, fun _ => rfl, fun _ => rfl, rfl, rfl, rfl, rfl⟩

theorem KeepsInputs.hashBlock (j : Nat) (s : State) : KeepsInputs s (s.hashBlock j) :=
  ((KeepsInputs.loadBlock j s).trans (KeepsInputs.expandW _)).trans (KeepsInputs.compressW _)

theorem KeepsInputs.hashBlocks (s : State) (n : Nat) : KeepsInputs s (s.hashBlocks n) := by
  induction n with
  | zero => exact KeepsInputs.refl s
  | succ n ih => exact ih.trans (KeepsInputs.hashBlock n _)

/-- What keeps the inputs keeps the length. -/
theorem KeepsInputs.len {s t : State} (h : KeepsInputs s t) : t.len = s.len := by
  rw [State.len, State.len, h.len_lo, h.len_hi]

/-- `raise CommandError(c)` is the failed completion of R98. -/
theorem State.raiseError_fails (c : CommandError) (s : State) : FailsWith c s (s.raiseError c) :=
  ⟨rfl, rfl, rfl, rfl, rfl, rfl, rfl, rfl, rfl, rfl, rfl, rfl, KeepsInputs.raiseError c s⟩

/-! ### Blocks in order -/

@[simp] theorem State.hashBlocks_zero (s : State) : s.hashBlocks 0 = s := rfl

theorem State.hashBlocks_succ (s : State) (n : Nat) : s.hashBlocks (n + 1) = (s.hashBlocks n).hashBlock n := rfl

/-- The registers that the block steps leave alone. -/
theorem State.hashBlocks_frame (s : State) (n : Nat) :
    (s.hashBlocks n).busy = s.busy ∧ (s.hashBlocks n).pending = s.pending ∧ (s.hashBlocks n).done = s.done ∧
      (s.hashBlocks n).err = s.err ∧ (s.hashBlocks n).errcode = s.errcode ∧ (s.hashBlocks n).dig = s.dig ∧
      (s.hashBlocks n).blkidx = s.blkidx ∧ (s.hashBlocks n).msg = s.msg := by
  induction n with
  | zero => exact ⟨rfl, rfl, rfl, rfl, rfl, rfl, rfl, rfl⟩
  | succ n ih => simpa [State.hashBlocks_succ] using ih

/-- The bytes of a block come from positions below L only, so messages that agree there give equal blocks (R69). -/
theorem padBlock_congr {f g : Nat → Byte} {L : Nat} (h : ∀ a, a < L → f a = g a) (j : Nat) :
    padBlock f L j = padBlock g L j := by
  have hb : ∀ q, padByte f L q = padByte g L q := by
    intro q
    unfold padByte
    split_ifs with hq
    · exact h q hq
    all_goals rfl
  unfold padBlock
  simp only [hb]

/-! ### The commands, by their checks -/

theorem execLoad_error {s : State} {c : CommandError} (h : s.blockError = some c) :
    execLoad s = .next (s.raiseError c) := by
  simp [execLoad, h]

theorem execLoad_ok {s : State} (h : s.blockError = none) :
    execLoad s = .next (s.loadBlock s.blkidx.toNat).succeed := by
  simp [execLoad, h]

theorem execBlock_error {s : State} {c : CommandError} (h : s.blockError = some c) :
    execBlock s = .next (s.raiseError c) := by
  simp [execBlock, h]

theorem execBlock_ok {s : State} (h : s.blockError = none) :
    execBlock s = .next { s.hashBlock s.blkidx.toNat with blkidx := s.blkidx + 1 }.succeed := by
  simp [execBlock, h]

theorem execOneShot_error {s : State} {c : CommandError} (h : s.lengthError = some c) :
    execOneShot s = .next (s.raiseError c) := by
  simp [execOneShot, h]

theorem execOneShot_ok {s : State} (h : s.lengthError = none) :
    execOneShot s = .next ((s.initHash.hashBlocks (blockCount s.len)).serializeH).succeed := by
  simp [execOneShot, h]

end Sys2Proof.Machine
end

