-- ==== Sys2Proof/Laws/Datapath.lean ====
section
/-! SUPPORT. One lemma per function of the datapath: the operators, the byte order, the padded block, the schedule and the
rounds. -/

namespace Sys2Proof.Machine

/-! ### Operators and byte order -/

/-- The rotation of R13 is the library's. -/
theorem rotr_eq_rotateRight (x : Word) {n : Nat} (h : n < 32) : rotr x n = x.rotateRight n := by
  apply BitVec.eq_of_getLsbD_eq
  intro i hi
  simp [rotr, hi, BitVec.rotateRight_def, Nat.mod_eq_of_lt h]

/-- A word is its four bytes, most significant first. -/
theorem be32_wordByte (v : Word) : be32 (wordByte v 0) (wordByte v 1) (wordByte v 2) (wordByte v 3) = v := by
  apply BitVec.eq_of_getLsbD_eq
  intro i hi
  simp only [be32, wordByte, BitVec.getLsbD_append, BitVec.getLsbD_extractLsb']
  simp
  interval_cases i <;> simp

/-- The bytes of a packed word. -/
theorem wordByte_be32 (a b c d : Byte) {n : Nat} (hn : n < 4) :
    wordByte (be32 a b c d) n = if n = 0 then a else if n = 1 then b else if n = 2 then c else d := by
  apply BitVec.eq_of_getLsbD_eq
  intro i hi
  simp only [be32, wordByte, BitVec.getLsbD_append, BitVec.getLsbD_extractLsb']
  interval_cases n <;> simp [hi] <;> grind

theorem wordByte_toNat (v : Word) {n : Nat} (hn : n < 4) : (wordByte v n).toNat = v.toNat / 256 ^ (3 - n) % 256 := by
  simp [wordByte, BitVec.extractLsb'_toNat, Nat.shiftRight_eq_div_pow]
  interval_cases n <;> simp

theorem be64Byte_toNat (v n : Nat) : (be64Byte v n).toNat = v / 256 ^ (7 - n) % 256 := by
  simp only [be64Byte, BitVec.toNat_ofNat]
  rw [Nat.pow_mul]

/-! ### Padding -/

/-- Byte n of padblock(L, j) (R148, R149). -/
theorem padBlock_byte (f : Nat → Byte) (L j : Nat) {n : Nat} (hn : n < 64) :
    wordByte (padBlock f L j)[n / 4] (n % 4) = padByte f L (64 * j + n) := by
  unfold padBlock
  simp only [Vector.getElem_ofFn]
  rw [wordByte_be32 _ _ _ _ (by omega)]
  split_ifs <;> congr 1 <;> omega

/-- The length field starts after the marker (R148). -/
theorem lt_lengthFieldStart (L : Nat) : L < lengthFieldStart L := by
  unfold lengthFieldStart blockCount
  omega

/-! ### The schedule -/

/-- A word that is computed stays as it is. -/
theorem expandUpTo_stable (w0 : Vector Word 64) {n m i : Nat} (hi : i < 64) (h : i < n + 16) (hnm : n ≤ m) (hm : m ≤ 48) :
    (expandUpTo w0 m)[i] = (expandUpTo w0 n)[i] := by
  induction m with
  | zero =>
    have : n = 0 := by omega
    subst this; rfl
  | succ m ih =>
    by_cases he : n = m + 1
    · subst he; rfl
    · rw [expandUpTo]
      simp only [show m < 48 by omega, dif_pos]
      rw [Vector.getElem_set_ne _ _ (by omega), ih (by omega) (by omega)]

theorem expandUpTo_new (w0 : Vector Word 64) {n : Nat} (hn : n < 48) :
    (expandUpTo w0 (n + 1))[n + 16] = scheduleWord (expandUpTo w0 n) n hn := by
  rw [expandUpTo]
  simp [hn]

/-- Words 0 to 15 of a schedule are the block's (R170). -/
theorem expandBlock_low (b : Vector Word 16) {k : Nat} (hk : k < 16) : (expandBlock b)[k] = b[k] := by
  unfold expandBlock
  rw [expandUpTo_stable _ (n := 0) (by omega) (by omega) (by omega) (by omega)]
  simp [expandUpTo, hk]

/-- Words 16 to 63 of a schedule follow the recurrence (R171). -/
theorem expandBlock_high (b : Vector Word 16) {n : Nat} (hn : n < 48) :
    (expandBlock b)[n + 16] = scheduleWord (expandBlock b) n hn := by
  unfold expandBlock
  rw [expandUpTo_stable _ (n := n + 1) (by omega) (by omega) (by omega) (by omega), expandUpTo_new _ hn]
  unfold scheduleWord
  rw [expandUpTo_stable _ (n := n) (i := n) (by omega) (by omega) (by omega) (le_refl 48),
    expandUpTo_stable _ (n := n) (i := n + 1) (by omega) (by omega) (by omega) (le_refl 48),
    expandUpTo_stable _ (n := n) (i := n + 9) (by omega) (by omega) (by omega) (le_refl 48),
    expandUpTo_stable _ (n := n) (i := n + 14) (by omega) (by omega) (by omega) (le_refl 48)]

/-! ### The rounds -/

theorem roundsUpTo_succ (h : Vector Word 8) (w : Vector Word 64) {n : Nat} (hn : n < 64) :
    roundsUpTo h w (n + 1) = roundStep (roundsUpTo h w n) roundConstants[n] w[n] := by
  rw [roundsUpTo]
  simp [hn]

theorem rounds64_eq (h : Vector Word 8) (w : Vector Word 64) : rounds64 h w = roundsUpTo h w 64 := by
  simp [rounds64]

theorem addWords_getElem (x y : Vector Word 8) {k : Nat} (hk : k < 8) : (addWords x y)[k] = x[k] + y[k] := by
  simp [addWords]

end Sys2Proof.Machine
end

