-- ==== Sys2Proof/Laws/Decode.lean ====
section
/-! SUPPORT. The fields of a command word as numbers, and what the decoder answers. -/

namespace Sys2Proof

theorem opcField_toNat (v : Word) : (opcField v).toNat = v.toNat % 16 := by
  simp [opcField]

theorem rsvField_toNat (v : Word) : (rsvField v).toNat = v.toNat / 16 := by
  simp [rsvField, BitVec.extractLsb'_toNat, Nat.shiftRight_eq_div_pow]
  omega

/-- The legal words are 0 to 7 (R104). -/
theorem legalWord_iff (v : Word) : legalWord v = true ↔ v.toNat < 8 := by
  have hr : rsvField v = 0 ↔ v.toNat / 16 = 0 := by
    rw [← BitVec.toNat_inj, rsvField_toNat]
    rfl
  simp only [legalWord, Bool.and_eq_true, decide_eq_true_eq, hr, opcField_toNat]
  omega

/-- Every word from 8 up decodes to the illegal-word row (R92). -/
theorem decode_illegal {v : Word} (h : 8 ≤ v.toNat) : decode v = .illegal v := by
  have : legalWord v = false := by
    rw [Bool.eq_false_iff, Ne, legalWord_iff]
    omega
  simp [decode, this]

/-- A word below 8 decodes by the opcode map (R91). -/
theorem decode_legal {v : Word} {i : Instr} (h : v.toNat < 8) (hi : opcodeMap v.toNat = some i) : decode v = i := by
  have hl : legalWord v = true := (legalWord_iff v).mpr h
  have ho : (opcField v).toNat = v.toNat := by
    rw [opcField_toNat]
    omega
  simp [decode, hl, ho, hi]

end Sys2Proof
end

