-- ==== Sys2Proof/Laws/PerInstr.lean ====
section
/-! SUPPORT. Statements for all instructions, one lemma per constructor of `Instr`. -/

namespace Sys2Proof.Laws

/-- The word of a well-formed command is legal exactly when the command is none of the illegal-word row. -/
def EncodedWord.Statement (i : Instr) : Prop :=
  i.wellFormed = true → (legalWord (encode i) = true ↔ ∀ v, i ≠ .illegal v)

theorem EncodedWord.nop : EncodedWord.Statement .nop := by
  intro _; simp [legalWord_iff, encode, Instr.opc]

theorem EncodedWord.init : EncodedWord.Statement .init := by
  intro _; simp [legalWord_iff, encode, Instr.opc]

theorem EncodedWord.load : EncodedWord.Statement .load := by
  intro _; simp [legalWord_iff, encode, Instr.opc]

theorem EncodedWord.expand : EncodedWord.Statement .expand := by
  intro _; simp [legalWord_iff, encode, Instr.opc]

theorem EncodedWord.compress : EncodedWord.Statement .compress := by
  intro _; simp [legalWord_iff, encode, Instr.opc]

theorem EncodedWord.finalize : EncodedWord.Statement .finalize := by
  intro _; simp [legalWord_iff, encode, Instr.opc]

theorem EncodedWord.oneShot : EncodedWord.Statement .oneShot := by
  intro _; simp [legalWord_iff, encode, Instr.opc]

theorem EncodedWord.block : EncodedWord.Statement .block := by
  intro _; simp [legalWord_iff, encode, Instr.opc]

theorem EncodedWord.illegal (v : Word) : EncodedWord.Statement (.illegal v) := by
  intro h
  have h8 : 8 ≤ v.toNat := by simpa [Instr.wellFormed] using h
  constructor
  · intro hl
    have := (legalWord_iff v).mp hl
    omega
  · intro hv
    exact absurd rfl (hv v)

end Sys2Proof.Laws
end

