-- ==== Sys2Proof/Laws/Step.lean ====
section
/-! SUPPORT. What one step can do, by whose turn it is, and what each access of the host does. -/

namespace Sys2Proof.Machine

/-! ### Turns -/

theorem step_nil {s : State} (h : s.agenda = []) : step s = engineTurn s := by
  simp [step, h]

theorem step_engine {s : State} {rest : List Turn} (h : s.agenda = .engine :: rest) :
    step s = engineTurn { s with agenda := rest } := by
  simp [step, h]

theorem step_host {s : State} {x : Txn} {rest : List Turn} (h : s.agenda = .host x :: rest) :
    step s = hostTurn x { s with agenda := rest } := by
  simp [step, h]

theorem step_reset {s : State} {rest : List Turn} (h : s.agenda = .reset :: rest) :
    step s = .next { s with agenda := rest }.applyReset := by
  simp [step, h]

/-- A step that answers a next state is the engine's turn (on an agenda that is empty, or whose first turn is taken off),
a host primitive, or a reset. -/
theorem step_cases {s t : State} (h : step s = .next t) :
    (∃ rest, (s.agenda = [] ∧ rest = [] ∨ s.agenda = .engine :: rest) ∧
      engineTurn { s with agenda := rest } = .next t) ∨
    (∃ x rest op, s.agenda = .host x :: rest ∧ x.decode = some op ∧ t = hostOp { s with agenda := rest } op) ∨
    (∃ rest, s.agenda = .reset :: rest ∧ t = { s with agenda := rest }.applyReset) := by
  match ha : s.agenda with
  | [] =>
    rw [step_nil ha] at h
    have hs : { s with agenda := [] } = s := by rw [← ha]
    exact .inl ⟨[], .inl ⟨rfl, rfl⟩, by rw [hs]; exact h⟩
  | .engine :: rest =>
    rw [step_engine ha] at h
    exact .inl ⟨rest, .inr rfl, h⟩
  | .host x :: rest =>
    rw [step_host ha, hostTurn] at h
    cases hd : x.decode with
    | none => simp [hd] at h
    | some op =>
      rw [hd] at h
      cases h
      exact .inr (.inl ⟨x, rest, op, rfl, hd, rfl⟩)
  | .reset :: rest =>
    rw [step_reset ha] at h
    cases h
    exact .inr (.inr ⟨rest, rfl, rfl⟩)

theorem engineTurn_idle {s : State} (h : s.busy = false) : engineTurn s = .next s := by
  simp [engineTurn, h]

theorem engineTurn_busy {s : State} {v : Word} (h : s.busy = true) (hp : s.pending = some v) :
    engineTurn s = exec (decode v) s := by
  simp [engineTurn, h, State.fetch, hp]

/-- The engine's turn that answers a next state: idle, or the decoded command. -/
theorem engineTurn_cases {s t : State} (h : engineTurn s = .next t) :
    (s.busy = false ∧ t = s) ∨ ∃ v, s.busy = true ∧ s.pending = some v ∧ exec (decode v) s = .next t := by
  cases hb : s.busy with
  | false =>
    rw [engineTurn_idle hb] at h
    cases h
    exact .inl ⟨rfl, rfl⟩
  | true =>
    cases hp : s.pending with
    | none => simp [engineTurn, hb, State.fetch, hp] at h
    | some v =>
      rw [engineTurn_busy hb hp] at h
      exact .inr ⟨v, rfl, rfl, h⟩

/-! ### Runs -/

@[simp] theorem run_zero (s : State) : run 0 s = .next s := rfl

theorem run_succ {s t : State} (h : step s = .next t) (k : Nat) : run (k + 1) s = run k t := by
  simp [run, h]

/-- `run` is the host's run of this machine. -/
theorem run_eq_core_run (k : Nat) (s : State) : run k s = Host.Core.run Sys2Proof.core k s := by
  induction k generalizing s with
  | zero => rfl
  | succ k ih =>
    cases hs : step s with
    | next t =>
      have hc : core.step s = .next t := hs
      simp only [run, hs, Host.Core.run, hc]
      exact ih t
    | fault f =>
      have hc : core.step s = .fault f := hs
      simp only [run, hs, Host.Core.run, hc]
      rfl
    | refused r =>
      have hc : core.step s = .refused r := hs
      simp only [run, hs, Host.Core.run, hc]
      rfl

/-- A run of `j + k` steps is a run of `j` steps and then one of `k`. -/
theorem run_add {s t : State} {j : Nat} (h : run j s = .next t) (k : Nat) : run (j + k) s = run k t := by
  induction j generalizing s with
  | zero =>
    cases h
    rw [Nat.zero_add]
  | succ j ih =>
    rw [Nat.add_right_comm]
    simp only [run] at h ⊢
    cases hs : step s with
    | next u =>
      rw [hs] at h
      exact ih h
    | fault f => simp [hs] at h
    | refused r => simp [hs] at h

/-! ### The host's transactions -/

theorem Txn.decode_regWrite {off : Nat} (v : Word) (h : off % 4 = 0) (hl : off ≤ 0xFFC) :
    Txn.decode ⟨.write, .reg, off, 32, v⟩ = some (.regWrite off v) := by
  simp [Txn.decode, h, hl]

theorem Txn.decode_regRead {off : Nat} (v : Word) (h : off % 4 = 0) (hl : off ≤ 0xFFC) :
    Txn.decode ⟨.read, .reg, off, 32, v⟩ = some (.regRead off) := by
  simp [Txn.decode, h, hl]

theorem Txn.decode_msgWrite8 (a : Nat) {v : Word} (h : v.toNat < 256) :
    Txn.decode ⟨.write, .msg, a, 8, v⟩ = some (.msgWrite8 a (v.setWidth 8)) := by
  simp [Txn.decode, h]

theorem Txn.decode_msgRead8 (a : Nat) (v : Word) : Txn.decode ⟨.read, .msg, a, 8, v⟩ = some (.msgRead8 a) := by
  simp [Txn.decode]

theorem Txn.decode_msgWrite32 (a : Nat) (v : Word) :
    Txn.decode ⟨.write, .msg, a, 32, v⟩ = some (.msgWrite32 a v) := by
  simp [Txn.decode]

theorem Txn.decode_msgRead32 (a : Nat) (v : Word) : Txn.decode ⟨.read, .msg, a, 32, v⟩ = some (.msgRead32 a) := by
  simp [Txn.decode]

theorem hostTurn_of_decode {x : Txn} {op : HostOp} (h : x.decode = some op) (s : State) :
    hostTurn x s = .next (hostOp s op) := by
  simp [hostTurn, h]

/-- No host primitive touches the coming turns. -/
@[simp] theorem hostOp_agenda (s : State) (op : HostOp) : (hostOp s op).agenda = s.agenda := by
  cases op with
  | regRead off =>
    simp only [hostOp, State.regRead]
    split
    · rfl
    · split <;> rfl
  | regWrite off v =>
    simp only [hostOp, State.regWrite]
    split
    · rfl
    · rename_i r _
      cases r <;> simp only [State.writeReg, State.guarded] <;> (try split) <;> rfl
  | msgRead8 a => simp only [hostOp, State.msgRead8]; split <;> rfl
  | msgRead32 a => simp only [hostOp, State.msgRead32]; split <;> rfl
  | msgWrite8 a v => simp only [hostOp, State.msgWrite8, State.guarded]; split <;> [(split <;> rfl); rfl]
  | msgWrite32 a v => simp only [hostOp, State.msgWrite32, State.guarded]; split <;> [(split <;> rfl); rfl]

/-- A turn of the host that writes a register. -/
theorem step_regWrite {s : State} {off : Nat} {v : Word} {rest : List Turn} (h : off % 4 = 0) (hl : off ≤ 0xFFC)
    (ha : s.agenda = .host ⟨.write, .reg, off, 32, v⟩ :: rest) :
    step s = .next (({ s with agenda := rest } : State).regWrite off v) := by
  rw [step_host ha, hostTurn_of_decode (Txn.decode_regWrite v h hl)]
  rfl

/-- A turn of the host that reads a register. -/
theorem step_regRead {s : State} {off : Nat} {v : Word} {rest : List Turn} (h : off % 4 = 0) (hl : off ≤ 0xFFC)
    (ha : s.agenda = .host ⟨.read, .reg, off, 32, v⟩ :: rest) :
    step s = .next (({ s with agenda := rest } : State).regRead off) := by
  rw [step_host ha, hostTurn_of_decode (Txn.decode_regRead v h hl)]
  rfl

/-- What a transaction decodes to says what it was (R102). -/
theorem Txn.decode_inv {x : Txn} {op : HostOp} (h : x.decode = some op) :
    (x.space = .reg ∧ x.dir = .read ∧ x.width = 32 ∧ x.addr % 4 = 0 ∧ x.addr ≤ 0xFFC ∧ op = .regRead x.addr) ∨
    (x.space = .reg ∧ x.dir = .write ∧ x.width = 32 ∧ x.addr % 4 = 0 ∧ x.addr ≤ 0xFFC ∧ op = .regWrite x.addr x.data) ∨
    (x.space = .msg ∧ x.dir = .read ∧ x.width = 8 ∧ op = .msgRead8 x.addr) ∨
    (x.space = .msg ∧ x.dir = .read ∧ x.width = 32 ∧ op = .msgRead32 x.addr) ∨
    (x.space = .msg ∧ x.dir = .write ∧ x.width = 8 ∧ x.data.toNat < 256 ∧
      op = .msgWrite8 x.addr (x.data.setWidth 8)) ∨
    (x.space = .msg ∧ x.dir = .write ∧ x.width = 32 ∧ op = .msgWrite32 x.addr x.data) := by
  obtain ⟨dir, space, addr, width, data⟩ := x
  cases space <;> cases dir <;> simp only [Txn.decode] at h <;> split_ifs at h <;> simp_all

/-! ### The register map -/

/-- The registers at the offsets of their names (R40). -/
theorem Reg.ofOffset_offset (r : Reg) : Reg.ofOffset r.offset = some r := by
  cases r <;> simp [Reg.offset, Reg.ofOffset, Reg.ofLowOffset] <;> grind

/-- An aligned offset that names a register is that register's. -/
theorem Reg.offset_of_ofOffset {off : Nat} {r : Reg} (h4 : off % 4 = 0) (h : Reg.ofOffset off = some r) :
    r.offset = off := by
  unfold Reg.ofOffset at h
  split_ifs at h with h0 h1 h2 h3 h4 h5 h6 h7
  · unfold Reg.ofLowOffset at h
    split at h <;> cases h <;> rfl
  all_goals
    cases h
    simp only [Reg.offset]
    omega

theorem State.regWrite_offset (r : Reg) (v : Word) (s : State) : s.regWrite r.offset v = s.writeReg v r := by
  simp [State.regWrite, Reg.ofOffset_offset]

theorem State.guarded_busy {s : State} (h : s.busy = true) (f : State → State) : s.guarded f = s.dropWrite := by
  simp [State.guarded, h]

theorem State.guarded_idle {s : State} (h : s.busy = false) (f : State → State) : s.guarded f = f s := by
  simp [State.guarded, h]

end Sys2Proof.Machine
end

