-- ==== Sys2Proof/Tests/Slice0.lean ====
section
/-! SUPPORT. Tests and witnesses. The expected values come from the spec: the id of the vector of 95_test_vectors.md, or
the rule, stands at each. The witnesses show states and operands that meet the hypotheses of a statement. -/

namespace Sys2Proof.Tests

open Sys2Proof.Machine

/-! ### Helpers -/

/-- The outcome is a next state with this property. -/
def answers (o : Host.Outcome State Fault Refusal) (p : State → Bool) : Bool :=
  match o with
  | .next s => p s
  | .fault _ => false
  | .refused _ => false

/-- A message buffer that holds these bytes from address 0 on. -/
def buffer (bytes : List Nat) : Memory :=
  (List.range bytes.length).map fun a => (a, BitVec.ofNat 8 (bytes.getD a 0))

/-- The reset state with a message and its length. -/
def holding (bytes : List Nat) : State :=
  { State.reset with msg := buffer bytes, lenLo := BitVec.ofNat 32 bytes.length }

/-- The reset state with a length only. -/
def lengthOf (L : BitVec 64) : State :=
  { State.reset with lenLo := L.extractLsb' 0 32, lenHi := L.extractLsb' 32 32 }

/-- The same state with these turns to come. -/
def coming (s : State) (turns : List Turn) : State := { s with agenda := turns }

/-- "abc". -/
def abc : State := holding [0x61, 0x62, 0x63]

/-- The 56-byte message of V-COMP-6. -/
def twoBlocks : State := holding ((List.range 14).flatMap fun n => [0x61 + n, 0x62 + n, 0x63 + n, 0x64 + n])

/-- The block of the padded "abc". -/
def abcBlock : Vector Word 16 := #v[0x61626380, 0, 0, 0, 0, 0, 0, 0, 0, 0, 0, 0, 0, 0, 0, 0x18]

/-- The hash state after "abc" (V-COMP-1). -/
def abcHash : Vector Word 8 :=
  #v[0xba7816bf, 0x8f01cfea, 0x414140de, 0x5dae2223, 0xb00361a3, 0x96177a9c, 0xb410ff61, 0xf20015ad]

/-! ### Well-formed terms -/

theorem test_wellFormed_refuses_a_legal_word : (Instr.illegal 0x00000007).wellFormed = false := by decide

theorem test_wellFormed_accepts_an_illegal_word : (Instr.illegal 0x00000008).wellFormed = true := by decide

/-! ### Encoding (R90, R91, R92, R104): each word written out as RSV, bits 31:4, and OPC, bits 3:0 -/

theorem test_decode_nop : decode (0x0000000#28 ++ 0b0000#4) = .nop := by decide

theorem test_decode_init : decode (0x0000000#28 ++ 0b0001#4) = .init := by decide

theorem test_decode_load : decode (0x0000000#28 ++ 0b0010#4) = .load := by decide

theorem test_decode_expand : decode (0x0000000#28 ++ 0b0011#4) = .expand := by decide

theorem test_decode_compress : decode (0x0000000#28 ++ 0b0100#4) = .compress := by decide

theorem test_decode_finalize : decode (0x0000000#28 ++ 0b0101#4) = .finalize := by decide

theorem test_decode_oneShot : decode (0x0000000#28 ++ 0b0110#4) = .oneShot := by decide

theorem test_decode_block : decode (0x0000000#28 ++ 0b0111#4) = .block := by decide

theorem test_decode_illegal_opc : decode (0x0000000#28 ++ 0b1000#4) = .illegal 0x00000008 := by decide

theorem test_decode_illegal_rsv : decode (0x0000001#28 ++ 0b0010#4) = .illegal 0x00000012 := by decide

theorem test_decodeTableWord : decodeTableWord 32 0x6 = some .oneShot ∧ decodeTableWord 32 0x10 = some (.illegal 0x10) := by
  decide

theorem test_listing : (decode 0x7).listing = "BLOCK" ∧ (decode 0x1A).listing = ".illegal 0x0000001a" := by decide

/-! ### Operators (V-PRIM) -/

theorem test_sigma_functions :
    ssig0 0x12345678 = 0xe7fce6ee ∧ ssig1 0x12345678 = 0xa1f78649 ∧ bsig0 0x12345678 = 0x66146474 ∧
      bsig1 0x12345678 = 0x3561abda ∧ rotr 0xdeadbeef 7 = 0xdfbd5b7d := by decide

theorem test_shifts_are_logical : ssig0 0xffffffff = 0x1fffffff ∧ ssig1 0xffffffff = 0x003fffff := by decide

theorem test_ch_and_maj :
    ch 0xf0f0f0f0 0xaaaaaaaa 0x55555555 = 0xa5a5a5a5 ∧ maj 0xf0f0f0f0 0xcccccccc 0xaaaaaaaa = 0xe8e8e8e8 := by decide

/-! ### Constant tables (R124, R125) -/

theorem test_generator_gives_K : generatedK = roundConstants := by decide +kernel

theorem test_generator_gives_IV : generatedIV = initialHash := by decide +kernel

/-! ### Padding (V-PAD) -/

theorem test_zeroFill :
    [0, 11, 55, 56, 63, 64, 120].map zeroFill = [55, 44, 0, 63, 56, 55, 63] ∧ zeroFill (2 ^ 61 - 1) = 56 := by decide

theorem test_nblk :
    (lengthOf 55).nblk = 1 ∧ (lengthOf 56).nblk = 2 ∧ (lengthOf 120).nblk = 3 ∧
      (lengthOf 0x1FFFFFFFFFFFFFFF).nblk = 1 ∧ (lengthOf 0x2000000000000000).nblk = 0 := by decide

/-! ### The commands -/

/-- V-ORC-10 (R233), one engine step after the acceptance that clears the error. -/
theorem test_nop :
    answers (step ({ abc with err := true, errcode := some .lengthOverflow }.withFetchWord 32 0))
      (fun t => t.statusWord == 0x00000002) = true := by decide

/-- V-CONST-6 (R128). -/
theorem test_init :
    answers (step ({ abc with h := Vector.replicate 8 0 }.withFetchWord 32 1))
      (fun t => t.h == #v[0x6a09e667, 0xbb67ae85, 0x3c6ef372, 0xa54ff53a, 0x510e527f, 0x9b05688c, 0x1f83d9ab, 0x5be0cd19]
        && t.statusWord == 0x00000002) = true := by decide

/-- R152, example. -/
theorem test_load : answers (step (abc.withFetchWord 32 2)) (fun t => t.blk == abcBlock) = true := by decide +kernel

/-- V-PAD, L = 55: the marker and the length field in one block. -/
theorem test_load_55 :
    answers (step ((holding (List.replicate 55 0x61)).withFetchWord 32 2))
      (fun t => t.blk[12] == 0x61616161 && t.blk[13] == 0x61616180 && t.blk[14] == 0 && t.blk[15] == 0x000001b8) = true := by
  decide +kernel

/-- V-SCHED-1 (R173). -/
theorem test_expand :
    answers (step ({ abc with blk := abcBlock }.withFetchWord 32 3))
      (fun t => t.w[15] == 0x18 && t.w[17] == 0x000f0000 && t.w[18] == 0x7da86405 && t.w[63] == 0x12b1edeb) = true := by
  decide +kernel

/-- V-SCHED-4: the additions wrap. -/
theorem test_expand_wraps :
    answers (step ({ abc with blk := Vector.replicate 16 0xffffffff }.withFetchWord 32 3))
      (fun t => t.w[16] == 0x203ffffc && t.w[23] == 0xda3bad30 && t.w[63] == 0x4bceaf09) = true := by
  decide +kernel

/-- V-COMP-1 (R195). -/
theorem test_compress :
    answers (step ({ abc with w := expandBlock abcBlock }.withFetchWord 32 4))
      (fun t => t.h == abcHash && t.wv[0] == 0x506e3058 && t.wv[7] == 0x961f4894 && t.roundWord == 64) = true := by
  decide +kernel

/-- V-COMP-4, the zero corner. -/
theorem test_compress_zero :
    answers (step ({ abc with h := Vector.replicate 8 0 }.withFetchWord 32 4))
      (fun t => t.h == t.wv && t.h ==
        #v[0x7ca51614, 0x425c3ba8, 0xce54dd2f, 0xc2020ae7, 0xb6e574d1, 0x98136d0f, 0xae7e26cc, 0xbf0be7a6]) = true := by
  decide +kernel

/-- V-DIG (R222). -/
theorem test_finalize :
    answers (step ({ abc with h := abcHash }.withFetchWord 32 5))
      (fun t => t.digest[0] == 0xba && t.digest[3] == 0xbf &&
        digestHex t.digest == "ba7816bf8f01cfea414140de5dae2223b00361a396177a9cb410ff61f20015ad") = true := by
  decide +kernel

/-- V-ORC-2 and the end state of P1 (R230). -/
theorem test_oneShot :
    answers (step (abc.withFetchWord 32 6))
      (fun t => t.dig == abcHash && t.h == abcHash && t.blk == abcBlock && t.w[63] == 0x12b1edeb &&
        t.wv[0] == 0x506e3058 && t.blkidx == 0 && t.statusWord == 0x00000002) = true := by
  decide +kernel

/-- V-ORC-1, n = 120: three blocks. -/
theorem test_oneShot_three_blocks :
    answers (step ((holding (List.replicate 120 0x61)).withFetchWord 32 6))
      (fun t => digestHex t.digest == "2f3d335432c70b580af0e8e1b3674a7c020d683aa5f73aaaedfdc55af904c21c") = true := by
  decide +kernel

/-- P2, the first iteration (R232). -/
theorem test_block :
    answers (step (twoBlocks.withFetchWord 32 7))
      (fun t => t.blkidx == 1 && t.dig == Vector.replicate 8 0 && t.h ==
        #v[0x85e655d6, 0x417a1795, 0x3363376a, 0x624cde5c, 0x76e09589, 0xcac5f811, 0xcc4b32c1, 0xf20e533a]) = true := by
  decide +kernel

/-- V-ORC-7: past the last block. -/
theorem test_block_past_the_end :
    answers (step ({ twoBlocks with blkidx := 2 }.withFetchWord 32 7))
      (fun t => t.statusWord == 0x00000034 && t.h == initialHash && t.blkidx == 2) = true := by decide

/-- V-ORC-8 (R234). -/
theorem test_illegal_opc :
    answers (step (abc.withFetchWord 32 0x8)) (fun t => t.statusWord == 0x00000044 && t.cmd == 0x8) = true := by decide

/-- V-ORC-9: no length check is made. -/
theorem test_illegal_rsv :
    answers (step ((lengthOf 0x2000000000000000).withFetchWord 32 0x12)) (fun t => t.statusWord == 0x00000044) = true := by
  decide

/-- V-PAD, L = 2^61 with BLKIDX = 7, and L = MSG_CAP + 1. -/
theorem test_length_errors :
    answers (step ({ lengthOf 0x2000000000000000 with blkidx := 7 }.withFetchWord 32 2))
      (fun t => t.statusWord == 0x00000014) = true ∧
    answers (step ((lengthOf 4097).withFetchWord 32 2)) (fun t => t.statusWord == 0x00000024) = true := by decide

/-! ### The host's accesses (V-HOST, V-CONST) -/

/-- V-HOST-1: a word write, seen by a byte read. -/
theorem test_msg_is_big_endian :
    answers (run 2 (coming State.reset [(HostLine.ww 0 0x61626300).turn, (HostLine.rb 1).turn]))
      (fun t => t.answers == [.u8 0x62] && t.statusWord == 0) = true := by decide +kernel

/-- V-HOST-2 and V-HOST-3. -/
theorem test_bad_msg_accesses :
    answers (step (coming State.reset [(HostLine.ww 2 0x11223344).turn])) (fun t => t.statusWord == 0x200 && t.msg == [])
      = true ∧
    answers (step (coming State.reset [(HostLine.rw 4096).turn]))
      (fun t => t.statusWord == 0x200 && t.answers == [.u32 0]) = true := by decide

/-- V-HOST-4 and V-HOST-5: writes while BUSY = 1. -/
theorem test_writes_while_busy :
    answers (step (coming (abc.accept 6) [(HostLine.wr (.h 0) 5).turn]))
      (fun t => t.statusWord == 0x101 && t.h == initialHash) = true ∧
    answers (step (coming (abc.accept 6) [(cmdLine .init).turn]))
      (fun t => t.statusWord == 0x101 && t.cmd == 6 && t.pending == some 6) = true := by decide

/-- V-HOST-7 and V-HOST-10: `clear`, and the interrupt line. -/
theorem test_clear :
    answers (step (coming { abc with err := true, errcode := some .illegalCommand, werr := true, aerr := true, ctrlIE := true }
      [clearLine.turn])) (fun t => t.statusWord == 0 && !t.irq) = true ∧
    ({ abc with done := true, ctrlIE := true } : State).irq = true := by decide

/-- V-CONST-3 and V-CONST-4, V-HOST-8 and V-HOST-9: reads of the ROMs, of ID and of a reserved offset. -/
theorem test_register_reads :
    answers (step (coming State.reset [.host ⟨.read, .reg, 0x278, 32, 0⟩])) (fun t => t.answers == [.u32 0x06ca6351]) = true ∧
    answers (step (coming State.reset [.host ⟨.read, .reg, 0x31C, 32, 0⟩])) (fun t => t.answers == [.u32 0x5be0cd19]) = true ∧
    answers (step (coming State.reset [(HostLine.rd .id).turn])) (fun t => t.answers == [.u32 0x53323536]) = true ∧
    answers (step (coming State.reset [.host ⟨.read, .reg, 0x800, 32, 0⟩])) (fun t => t.answers == [.u32 0]) = true := by
  decide

/-- R102, R103: offsets, names and transactions of the host notation. -/
theorem test_host_notation :
    (HostLine.rd (.dig 7)).txn = ⟨.read, .reg, 0x33C, 32, 0⟩ ∧ (cmdLine .oneShot).txn = ⟨.write, .reg, 0x008, 32, 6⟩ ∧
      (setlenLines 0x2000000000000038).map HostLine.txn =
        [⟨.write, .reg, 0x010, 32, 0x38⟩, ⟨.write, .reg, 0x014, 32, 0x20000000⟩] ∧
      (Reg.blk 15).name = "BLK15" ∧ Reg.lenHi.name = "LEN_HI" := by decide

/-! ### Witnesses: states and operands that meet the hypotheses of the statements, at the ends of their ranges -/

/-- A state with ONE_SHOT of "abc" pending. -/
def pendingAbc : State := abc.accept 0x00000006

/-- One turn of the host that writes a register. -/
def regW (off : Nat) (v : Word) : Turn := .host ⟨.write, .reg, off, 32, v⟩

/-- One turn of the host that reads a register. -/
def regR (off : Nat) : Turn := .host ⟨.read, .reg, off, 32, 0⟩

/-- The step answers a next state with this property. -/
abbrev goesTo (s : State) (p : State → Bool) : Prop := answers (step s) p = true

/-- The step is refused as an access that the interface does not have. -/
abbrev turnedAway (s : State) : Prop :=
  (match step s with
    | .refused r => r == .inexpressibleAccess
    | .next _ => false
    | .fault _ => false) = true

theorem witness_CommandWordsDecodeByRsvAndOpc :
    ((0x00000007 : Word).toNat / 16 = 0 ∧ (0x00000007 : Word).toNat % 16 = 0x7 ∧ decode 0x00000007 = .block) ∧
    (0x8 ≤ (0x0000000F : Word).toNat % 16 ∧ decode 0x0000000F = .illegal 0x0000000F) ∧
    ((0x00000010 : Word).toNat / 16 ≠ 0 ∧ decode 0x00000010 = .illegal 0x00000010) ∧
    (0xFFFFFFFF : Word).toNat / 16 ≠ 0 := by decide

theorem witness_DecodeAndEncodeAgree :
    (Instr.illegal 0x00000008).wellFormed = true ∧ (Instr.illegal 0xFFFFFFFF).wellFormed = true ∧
      Instr.block.wellFormed = true := by decide

theorem witness_RegisterOffsetsAgree :
    Reg.ofOffset 0x000 = some .id ∧ Reg.ofOffset 0x0BC = some (.blk 15) ∧ Reg.ofOffset 0x33C = some (.dig 7) ∧
      Reg.ofOffset 0x0C0 = none ∧ Reg.ofOffset 0x340 = none := by decide

theorem witness_EngineStepRunsTheDecodedCommand :
    pendingAbc.busy = true ∧ pendingAbc.pending = some 0x00000006 ∧ pendingAbc.agenda = [] ∧
      (coming pendingAbc [.engine, .reset]).agenda = .engine :: [.reset] := by decide

theorem witness_IdleEngineWakesOnlyOnAcceptance :
    abc.busy = false ∧ abc.agenda = [] ∧ goesTo abc (fun t => t == abc) ∧
      goesTo (coming abc [.engine, .reset]) (fun t => t == coming abc [.reset]) ∧
      goesTo (coming abc [regW 0x008 0xFFFFFFFF]) fun t => t.busy && t.cmd == 0xFFFFFFFF := by decide

theorem witness_CommandsWriteOnlyTheirRegisters :
    answers (exec .nop pendingAbc) (fun t => t.h == pendingAbc.h) = true ∧
    answers (exec .block pendingAbc) (fun t => t.blkidx == 1) = true := by decide

/-- The invariant in a state with a command pending. -/
theorem pendingAbc_inv : pendingAbc.Inv :=
  ⟨by decide, by decide, by decide, rfl, fun _ h => Option.some.inj h, fun _ => ⟨rfl, rfl⟩, fun _ => rfl, rfl, .inl rfl⟩

/-- Both clauses: a pending command with no reset to come (a poll and a dropped write before the engine moves), and one that a
reset removes. -/
theorem witness_EveryAcceptedCommandCompletesInTheEnd :
    (let s := coming pendingAbc [regR 0x00C, regW 0x040 5]
     s.Inv ∧ (∀ x, Turn.host x ∈ s.agenda → x.decode ≠ none) ∧ s.busy = true ∧ s.pending = some 0x00000006 ∧
       Turn.reset ∉ s.agenda ∧ answers (run 3 s) (fun t => t.done && t.werr && t.dig == abcHash) = true) ∧
    (let s := coming pendingAbc [.reset]
     s.Inv ∧ (∀ x, Turn.host x ∈ s.agenda → x.decode ≠ none) ∧ answers (run 2 s) (fun t => !t.busy && !t.done) = true) := by
  have h := pendingAbc_inv
  refine ⟨⟨⟨h.1, h.2, h.3, h.4, h.5, h.6, h.7, h.8, h.9⟩, ?_, by decide, by decide, by decide, by decide +kernel⟩,
    ⟨h.1, h.2, h.3, h.4, h.5, h.6, h.7, h.8, h.9⟩, ?_, by decide⟩
  · intro x hx
    simp only [coming, regR, regW, List.mem_cons, Turn.host.injEq, List.not_mem_nil, or_false] at hx
    rcases hx with rfl | rfl <;> decide
  · intro x hx
    simp [coming] at hx

theorem witness_NopOnlyCompletes :
    let s := { abc with err := true, errcode := some .blockRange }
    s.busy = false ∧ answers (run 2 (coming s [regW 0x008 0, .engine])) (fun t => t.statusWord == 0x00000002) = true := by
  decide

theorem witness_IllegalWordsFailAlike :
    0x8 ≤ (0x00000008 : Word).toNat % 16 ∧ (0x00000010 : Word).toNat / 16 ≠ 0 ∧ abc.busy = false ∧
      answers (run 2 (coming abc [regW 0x008 0x10, .engine])) (fun t => t.statusWord == 0x44 && t.cmd == 0x10) = true := by
  decide

/-- Every clause of the bytes of a block: message byte, marker and length field at L = 55, zero fill at L = 56. -/
theorem witness_LoadWritesThePaddedBlock :
    (let s := holding (List.replicate 55 0x61)
     s.len < 2 ^ 61 ∧ s.len ≤ s.msgCap.toNat ∧ s.blkidx.toNat < (s.len + 8) / 64 + 1 ∧
       answers (exec .load s) (fun t => t.blkByte 54 == 0x61 && t.blkByte 55 == 0x80 && t.blkByte 56 == 0x00 &&
         t.blkByte 62 == 0x01 && t.blkByte 63 == 0xb8) = true) ∧
    (let s := { lengthOf 56 with blkidx := 1 }
     s.len < 2 ^ 61 ∧ s.len ≤ s.msgCap.toNat ∧ s.blkidx.toNat < (s.len + 8) / 64 + 1 ∧
       answers (exec .load s) (fun t => t.blkByte 0 == 0x00 && t.blkByte 55 == 0x00 && t.blkByte 63 == 0xc0) = true) ∧
    (let s := { lengthOf 4096 with blkidx := 64 }
     s.len < 2 ^ 61 ∧ s.len ≤ s.msgCap.toNat ∧ s.blkidx.toNat < (s.len + 8) / 64 + 1 ∧
       answers (exec .load s) (fun t => t.blkByte 0 == 0x80 && t.blkByte 62 == 0x80) = true) := by decide +kernel

theorem witness_LengthOverflowFailsFirst :
    2 ^ 61 ≤ (lengthOf 0x2000000000000000).len ∧ 2 ^ 61 ≤ (lengthOf 0xFFFFFFFFFFFFFFFF).len ∧
      answers (exec .block (lengthOf 0xFFFFFFFFFFFFFFFF)) (fun t => t.errcode == some .lengthOverflow) = true := by decide

theorem witness_LengthBeyondTheBufferFails :
    (let s := lengthOf 4097
     s.len < 2 ^ 61 ∧ s.msgCap.toNat < s.len ∧ answers (exec .oneShot s) (fun t => t.errcode == some .lengthRange) = true) ∧
    (let s := lengthOf 0x1FFFFFFFFFFFFFFF
     s.len < 2 ^ 61 ∧ s.msgCap.toNat < s.len) ∧
    (lengthOf 4096).len = (lengthOf 4096).msgCap.toNat := by decide

theorem witness_BlockIndexBeyondTheMessageFails :
    (let s := { twoBlocks with blkidx := 2 }
     s.len < 2 ^ 61 ∧ s.len ≤ s.msgCap.toNat ∧ (s.len + 8) / 64 + 1 ≤ s.blkidx.toNat ∧
       answers (exec .load s) (fun t => t.errcode == some .blockRange) = true) ∧
    (let s := { lengthOf 4096 with blkidx := 0xFFFFFFFF }
     s.len < 2 ^ 61 ∧ s.len ≤ s.msgCap.toNat ∧ (s.len + 8) / 64 + 1 ≤ s.blkidx.toNat) := by decide

theorem witness_BlockIsLoadExpandCompress :
    let s := { twoBlocks with blkidx := 1 }
    s.len < 2 ^ 61 ∧ s.len ≤ s.msgCap.toNat ∧ s.blkidx.toNat < (s.len + 8) / 64 + 1 := by decide

theorem witness_BlockNeverWrapsItsIndex :
    pendingAbc.Inv ∧ answers (exec .block pendingAbc) (fun t => !t.err) = true := ⟨pendingAbc_inv, by decide⟩

theorem witness_OneShotComputesTheDigestOfTheMessage :
    State.reset.len ≤ State.reset.msgCap.toNat ∧ (lengthOf 4096).len ≤ (lengthOf 4096).msgCap.toNat := by decide

/-- P2 and V-ORC-5, by single commands. -/
theorem witness_OneShotEqualsTheHostSequence :
    twoBlocks.busy = false ∧ twoBlocks.len ≤ twoBlocks.msgCap.toNat ∧ blockCount twoBlocks.len = 2 ∧
      answers (run (oneShotByHand 2).length (coming twoBlocks (oneShotByHand 2)))
        (fun u => digestHex u.digest == "248d6a61d20638b8e5c026930c3e6039a33ce45964ff2167f6ecedd419db06c1") = true := by
  decide +kernel

/-- P2 and V-ORC-6, with BLOCK. -/
theorem witness_BlockByBlockEqualsOneShot :
    twoBlocks.busy = false ∧ twoBlocks.len ≤ twoBlocks.msgCap.toNat ∧
      (let turns := runTurns 0 .init ++ (HostLine.wr .blkidx 0).turn ::
        (List.replicate (blockCount twoBlocks.len) (runTurns 0 .block)).flatten ++ runTurns 0 .finalize
       answers (run turns.length (coming twoBlocks turns)) fun u => u.blkidx == 2 && u.nblk == 2 &&
        digestHex u.digest == "248d6a61d20638b8e5c026930c3e6039a33ce45964ff2167f6ecedd419db06c1") = true := by
  decide +kernel

/-- Two states that differ in what the operands leave out: the old BLK, W, DIG, the flags and an unread byte on the success
paths; every message byte on the error paths. -/
theorem witness_ResultsDependOnlyOnTheOperands :
    (let s' := { abc with
      blk := Vector.replicate 16 1, w := Vector.replicate 64 1, dig := Vector.replicate 8 1, werr := true
      msg := buffer [0x61, 0x62, 0x63, 0x64] }
     SameMessage abc s' ∧ abc.len ≤ abc.msgCap.toNat ∧ abc.blkidx.toNat < (abc.len + 8) / 64 + 1 ∧ s'.h = abc.h ∧
       answers (exec .load s') (fun t => t.blk == abcBlock) = true) ∧
    (let s := { lengthOf 4097 with blkidx := 7 }
     let s' := { s with msg := buffer [0x61] }
     s'.len = s.len ∧ s'.msgCap = s.msgCap ∧ s'.blkidx = s.blkidx ∧ s.msgCap.toNat < s.len) ∧
    (let s := { twoBlocks with blkidx := 2 }
     let s' := { s with msg := [] }
     s'.len = s.len ∧ s'.msgCap = s.msgCap ∧ s'.blkidx = s.blkidx ∧ (s.len + 8) / 64 + 1 ≤ s.blkidx.toNat ∧
       answers (exec .load s') (fun t => t.errcode == some .blockRange) = true) := by
  refine ⟨⟨⟨rfl, rfl, rfl, fun a ha => ?_⟩, by decide +kernel⟩, by decide +kernel, by decide +kernel⟩
  have h : a < 3 := ha
  match a, h with
  | 0, _ => rfl
  | 1, _ => rfl
  | 2, _ => rfl

theorem witness_PaddedBlocksConcatenateToThePaddedMessage :
    ([] : List Byte).length < 2 ^ 61 ∧ (pad ([] : List Byte)).length = 64 ∧
      (List.replicate 56 (0x61 : Byte)).length < 2 ^ 61 ∧ (pad (List.replicate 56 (0x61 : Byte))).length = 128 := by
  decide +kernel

theorem witness_PaddedMessageHasItsShape :
    (List.replicate 55 (0x61 : Byte)).length < 2 ^ 61 ∧ (pad (List.replicate 55 (0x61 : Byte))).length = 64 ∧
      (55 + 1 + zeroFill 55 + 8) % 64 = 0 ∧ (pad (List.replicate 56 (0x61 : Byte)))[57]? = some 0x00 := by decide +kernel

theorem witness_CommandWriteIsAccepted :
    abc.busy = false ∧ (coming abc [regW 0x008 6]).agenda = .host ⟨.write, .reg, 0x008, 32, 6⟩ :: [] ∧
      goesTo (coming abc [regW 0x008 6]) fun t => t.busy && t.pending == some 6 := by decide

theorem witness_CommandWriteWhileBusyIsDropped :
    pendingAbc.busy = true ∧
      goesTo (coming pendingAbc [regW 0x008 1]) fun t => t.werr && t.cmd == 6 && t.pending == some 6 := by decide

theorem witness_WritesWhileBusy :
    pendingAbc.busy = true ∧
    (∀ off ∈ [0x008, 0x010, 0x014, 0x018, 0x040, 0x05C, 0x080, 0x0BC],
      GuardedOffset off ∧ goesTo (coming pendingAbc [regW off 5]) fun t => t.werr) ∧
    (4095 < pendingAbc.msgCap.toNat ∧ (255 : Word).toNat < 256 ∧
      goesTo (coming pendingAbc [.host ⟨.write, .msg, 4095, 8, 255⟩]) fun t => t.werr && !t.aerr) ∧
    (4092 + 4 ≤ pendingAbc.msgCap.toNat ∧
      goesTo (coming pendingAbc [.host ⟨.write, .msg, 4092, 32, 5⟩]) fun t => t.werr && !t.aerr) ∧
    goesTo (coming pendingAbc [regW 0x004 1]) (fun t => t.ctrlIE && !t.werr) ∧
    goesTo (coming { pendingAbc with werr := true, aerr := true } [regW 0x00C 0x100]) (fun t => !t.werr && t.aerr) ∧
    ∀ off ∈ [0x000, 0x01C, 0x020, 0x024, 0x028, 0x03C, 0x060, 0x07C, 0x0C0, 0x200, 0xFFC],
      ¬GuardedOffset off ∧ goesTo (coming pendingAbc [regW off 5]) fun t => t == pendingAbc := by decide

theorem witness_RegisterWritesWhileIdle :
    abc.busy = false ∧
    goesTo (coming abc [regW 0x010 9]) (fun t => t.lenLo == 9) ∧
    goesTo (coming abc [regW 0x014 9]) (fun t => t.lenHi == 9) ∧
    goesTo (coming abc [regW 0x018 9]) (fun t => t.blkidx == 9) ∧
    goesTo (coming abc [regW 0x040 9]) (fun t => t.h[0] == 9 && t.h[1] == 0xbb67ae85) ∧
    goesTo (coming abc [regW 0x05C 9]) (fun t => t.h[7] == 9 && t.h[6] == 0x1f83d9ab) ∧
    goesTo (coming abc [regW 0x080 9]) (fun t => t.blk[0] == 9 && t.blk[1] == 0) ∧
    goesTo (coming abc [regW 0x0BC 9]) (fun t => t.blk[15] == 9 && t.blk[14] == 0) ∧
    ∀ off ∈ [0x000, 0x01C, 0x020, 0x024, 0x028, 0x03C, 0x060, 0x07C, 0x0C0, 0x1FC, 0x200, 0x300, 0x33C, 0xFFC],
      ¬GuardedOffset off ∧ goesTo (coming abc [regW off 9]) fun t => t == abc := by decide

theorem witness_ControlAndStatusWrites :
    goesTo (coming pendingAbc [regW 0x004 0xFFFFFFFE]) (fun t => !t.ctrlIE) ∧
    goesTo (coming { abc with err := true, errcode := some .lengthRange } [regW 0x00C 0x4])
      (fun t => !t.err && t.errcode == none) ∧
    goesTo (coming { abc with err := true, errcode := some .lengthRange, done := false } [regW 0x00C 0x2])
      (fun t => t.err && t.errcode == some .lengthRange) ∧
    goesTo (coming { abc with done := true } [regW 0x00C 0x304]) (fun t => t.done) := by decide

/-- The ends of every range of the map, and the offsets that read while BUSY = 1. -/
theorem witness_RegisterReadsFollowTheMap :
    (∀ p ∈ [(0x000, (0x53323536 : Word)), (0x004, 0), (0x008, 0), (0x00C, 0), (0x010, 3), (0x014, 0), (0x018, 0), (0x01C, 1),
        (0x020, 0), (0x024, 4096), (0x040, 0x6a09e667), (0x05C, 0x5be0cd19), (0x060, 0), (0x07C, 0), (0x080, 0x61626380),
        (0x0BC, 0x18), (0x100, 0), (0x1FC, 0), (0x200, 0x428a2f98), (0x2FC, 0xc67178f2), (0x300, 0x6a09e667),
        (0x31C, 0x5be0cd19), (0x320, 0), (0x33C, 0), (0x028, 0), (0x03C, 0), (0x0C0, 0), (0x0FC, 0), (0x340, 0), (0xFFC, 0)],
      p.1 % 4 = 0 ∧ p.1 ≤ 0xFFC ∧
        goesTo (coming { abc with blk := abcBlock } [regR p.1]) fun t => t.answers == [.u32 p.2]) ∧
    ∀ p ∈ [(0x008, (0x00000006 : Word)), (0x00C, 1), (0x200, 0x428a2f98), (0x31C, 0x5be0cd19), (0x340, 0)],
      ¬UnsettledOffset p.1 ∧ goesTo (coming pendingAbc [regR p.1]) fun t => t.answers == [.u32 p.2] := by decide

theorem witness_NblkReadsTheBlockCount :
    goesTo (coming (lengthOf 0x1FFFFFFFFFFFFFFF) [regR 0x01C]) (fun t => t.answers == [.u32 1]) ∧
      (lengthOf 0x1FFFFFFFFFFFFFFF).len < 2 ^ 61 ∧
    goesTo (coming (lengthOf 0x2000000000000000) [regR 0x01C]) (fun t => t.answers == [.u32 0]) ∧
      2 ^ 61 ≤ (lengthOf 0x2000000000000000).len ∧
    goesTo (coming abc [regW 0x01C 9]) (fun t => t == abc) := by decide

theorem witness_UnsettledReadsWhileBusy :
    pendingAbc.busy = true ∧
      ∀ off ∈ [0x018, 0x020, 0x040, 0x0BC, 0x100, 0x1FC, 0x320, 0x33C],
        off % 4 = 0 ∧ UnsettledOffset off ∧ goesTo (coming pendingAbc [regR off]) fun t => t.draws == 1 := by decide

theorem witness_ReadsHaveNoSideEffect :
    goesTo (coming abc [regR 0x040]) (fun t => t.answers == [.u32 0x6a09e667] && !t.aerr) ∧
    (MsgInRange abc ⟨.read, .msg, 4095, 8, 0⟩ ∧
      goesTo (coming abc [.host ⟨.read, .msg, 4095, 8, 0⟩]) (fun t => !t.aerr)) ∧
    (MsgInRange abc ⟨.read, .msg, 4092, 32, 0⟩ ∧
      goesTo (coming abc [.host ⟨.read, .msg, 4092, 32, 0⟩]) (fun t => !t.aerr)) ∧
    goesTo (coming abc [.host ⟨.read, .msg, 2, 32, 0⟩]) (fun t => t.answers == [.u32 0] && t.aerr) := by decide

theorem witness_InexpressibleAccessesAreRefused :
    turnedAway (coming abc [.host ⟨.write, .reg, 0x010, 16, 0⟩]) ∧
    turnedAway (coming abc [.host ⟨.read, .reg, 0x011, 32, 0⟩]) ∧
    turnedAway (coming abc [regR 0x1000]) ∧
    turnedAway (coming abc [.host ⟨.read, .msg, 0, 16, 0⟩]) ∧
    turnedAway (coming abc [.host ⟨.write, .msg, 0, 8, 256⟩]) ∧
    goesTo (coming abc [(HostLine.rb 0).turn]) (fun t => t.answers == [.u8 0x61]) := by decide

theorem witness_MsgByteAccesses :
    4095 < abc.msgCap.toNat ∧ abc.busy = false ∧ (255 : Word).toNat < 256 ∧
    goesTo (coming abc [.host ⟨.write, .msg, 4095, 8, 255⟩]) (fun t => t.msgByte 4095 == 0xFF && t.msgByte 2 == 0x63) ∧
    goesTo (coming abc [.host ⟨.read, .msg, 2, 8, 0⟩]) (fun t => t.answers == [.u8 0x63]) := by decide

theorem witness_MsgWordAccessesAreBigEndian :
    4092 + 4 ≤ abc.msgCap.toNat ∧ 4092 % 4 = 0 ∧ abc.busy = false ∧
    goesTo (coming abc [.host ⟨.write, .msg, 4092, 32, 0x11223344⟩])
      (fun t => t.msgByte 4092 == 0x11 && t.msgByte 4095 == 0x44 && t.msgByte 2 == 0x63) ∧
    goesTo (coming twoBlocks [.host ⟨.read, .msg, 0, 32, 0⟩]) (fun t => t.answers == [.u32 0x61626364]) ∧
    4 * 13 + 3 < twoBlocks.len ∧ (expandBlock (padBlock twoBlocks.msgByte twoBlocks.len 0))[13] = 0x6e6f7071 := by
  decide +kernel

theorem witness_BadMsgAccessesSetAerrOnly :
    goesTo (coming pendingAbc [.host ⟨.write, .msg, 4095, 32, 0⟩]) (fun t => t.aerr && !t.werr) ∧
    goesTo (coming pendingAbc [.host ⟨.write, .msg, 4096, 32, 0⟩]) (fun t => t.aerr && !t.werr) ∧
    goesTo (coming abc [.host ⟨.read, .msg, 1, 32, 0⟩]) (fun t => t.aerr && t.answers == [.u32 0]) ∧
    goesTo (coming pendingAbc [.host ⟨.write, .msg, 4096, 8, 255⟩]) (fun t => t.aerr && !t.werr) ∧
    goesTo (coming abc [.host ⟨.read, .msg, 4096, 8, 0⟩]) (fun t => t.aerr && t.answers == [.u8 0]) := by decide

theorem witness_MsgChangesOnlyByHostWrites :
    goesTo (coming abc [.host ⟨.write, .msg, 2, 8, 0x64⟩]) (fun t => t.msgByte 2 != abc.msgByte 2) := by decide

theorem witness_InputsStayFixedWhileBusy :
    pendingAbc.busy = true ∧ goesTo (coming pendingAbc [regW 0x018 9]) (fun t => t.blkidx == 0 && t.busy) := by decide

theorem witness_ReadOnlyResultsChangeOnlyByCommands :
    goesTo (abc.accept 4) (fun t => t.round != abc.round && t.done && !t.busy) ∧
      goesTo (coming { abc with round := 64 } [.reset]) (fun t => t.round == 0) := by decide

theorem witness_WerrAndAerrAreSticky :
    goesTo (coming { abc with werr := true } [regW 0x00C 0x100]) (fun t => !t.werr) ∧
    goesTo (coming { abc with aerr := true } [.reset]) (fun t => !t.aerr) ∧
    (GuardedOffset 0x0BC ∧ goesTo (coming pendingAbc [regW 0x0BC 0]) fun t => t.werr && !pendingAbc.werr) ∧
    (MsgInRange pendingAbc ⟨.write, .msg, 4092, 32, 0⟩ ∧
      goesTo (coming pendingAbc [.host ⟨.write, .msg, 4092, 32, 0⟩]) fun t => t.werr && !t.aerr) ∧
    (¬MsgInRange abc ⟨.read, .msg, 4096, 8, 0⟩ ∧
      goesTo (coming abc [.host ⟨.read, .msg, 4096, 8, 0⟩]) fun t => t.aerr && !abc.aerr) ∧
    (¬MsgInRange pendingAbc ⟨.write, .msg, 4093, 32, 0⟩ ∧
      goesTo (coming pendingAbc [.host ⟨.write, .msg, 4093, 32, 0⟩]) fun t => t.aerr && !t.werr) := by decide

theorem witness_InterruptRisesAndFalls :
    goesTo (coming { pendingAbc with ctrlIE := true } [.engine]) (fun t => t.irq) ∧
    goesTo (coming { abc with ctrlIE := true, done := true } [regW 0x00C 0x6]) (fun t => !t.irq) ∧
    goesTo (coming { abc with ctrlIE := true, done := true } [regW 0x008 0]) (fun t => !t.irq) ∧
    goesTo (coming { abc with ctrlIE := true, done := true } [.reset]) (fun t => !t.irq) := by decide

/-- P5, both ends. -/
theorem witness_HostWriteRacesWithOneShot :
    pendingAbc.busy = true ∧ pendingAbc.pending = some 0x00000006 ∧ pendingAbc.len ≤ pendingAbc.msgCap.toNat ∧
    answers (run 2 (coming pendingAbc [.engine, regW 0x040 0])) (fun t => t.h[0] == 0 && t.dig == abcHash &&
      t.statusWord == 0x00000002) = true ∧
    answers (run 2 (coming pendingAbc [regW 0x040 0, .engine])) (fun t => t.h == abcHash && t.dig == abcHash &&
      t.statusWord == 0x00000102) = true := by decide +kernel

theorem witness_ResetSetsEveryRegister :
    (coming pendingAbc [.reset]).agenda = .reset :: [] ∧
      goesTo (coming pendingAbc [.reset]) (fun t => t.pending == none && t.statusWord == 0 && t.msg == abc.msg) := by decide

theorem witness_EveryStepKeepsTheInvariant :
    pendingAbc.Inv ∧ goesTo pendingAbc (fun t => t.done && !t.busy) := ⟨pendingAbc_inv, by decide⟩

theorem witness_NoInternalViolationIsReachable :
    (coming pendingAbc [regR 0x1000]).Inv ∧
      turnedAway (coming pendingAbc [regR 0x1000]) :=
  ⟨⟨pendingAbc_inv.1, pendingAbc_inv.2, pendingAbc_inv.3, pendingAbc_inv.4, pendingAbc_inv.5, pendingAbc_inv.6,
    pendingAbc_inv.7, pendingAbc_inv.8, pendingAbc_inv.9⟩, by decide⟩

end Sys2Proof.Tests
end

/-! What the host reads of the register space: a settled register whatever BUSY is (R67), NBLK (R37), and the bits of
CTRL and STATUS that drive the interrupt output (R41). -/

namespace Sys2Proof.Machine

/-! ### Register accesses by name -/

theorem Reg.offset_aligned (r : Reg) : r.offset % 4 = 0 := by
  cases r <;> simp only [Reg.offset] <;> omega

theorem Reg.offset_le (r : Reg) : r.offset ≤ 0xFFC := by
  cases r <;> simp only [Reg.offset] <;> omega

@[simp] theorem State.regValue_agenda (s : State) (rest : List Turn) (r : Reg) :
    ({ s with agenda := rest } : State).regValue r = s.regValue r := by
  cases r <;> rfl

/-- R67 leaves these reads specified while BUSY = 1. -/
theorem State.regRead_settled {r : Reg} (h : r.unsettledWhileBusy = false) (s : State) :
    s.regRead r.offset = s.answer (.u32 (s.regValue r)) := by
  simp [State.regRead, Reg.ofOffset_offset, h]

theorem step_readSettled {s : State} {r : Reg} {v : Word} {rest : List Turn} (hr : r.unsettledWhileBusy = false)
    (ha : s.agenda = .host ⟨.read, .reg, r.offset, 32, v⟩ :: rest) :
    step s = .next { s with agenda := rest, answers := .u32 (s.regValue r) :: s.answers } := by
  rw [step_regRead r.offset_aligned r.offset_le ha, State.regRead_settled hr, State.regValue_agenda]
  rfl

theorem step_writeReg {s : State} {r : Reg} {v : Word} {rest : List Turn}
    (ha : s.agenda = .host ⟨.write, .reg, r.offset, 32, v⟩ :: rest) :
    step s = .next (({ s with agenda := rest } : State).writeReg v r) := by
  rw [step_regWrite r.offset_aligned r.offset_le ha, State.regWrite_offset]

/-! ### NBLK -/

theorem State.nblk_toNat {s : State} (h : s.len < 2 ^ 61) : s.nblk.toNat = blockCount s.len % 2 ^ 32 := by
  rw [State.nblk, if_pos h, BitVec.toNat_ofNat]

theorem State.nblk_of_overflow {s : State} (h : 2 ^ 61 ≤ s.len) : s.nblk = 0 :=
  if_neg (Nat.not_lt.mpr h)

/-! ### The bits of CTRL and STATUS behind the interrupt output -/

theorem State.ctrlWord_bit_ie (s : State) : s.ctrlWord.getLsbD 0 = s.ctrlIE := by
  rw [State.ctrlWord, BitVec.getLsbD_append]
  simp

theorem State.statusWord_bit_done (s : State) : s.statusWord.getLsbD 1 = s.done := by
  rw [State.statusWord, BitVec.getLsbD_append, BitVec.getLsbD_append]
  simp

theorem State.statusWord_bit_err (s : State) : s.statusWord.getLsbD 2 = s.err := by
  rw [State.statusWord, BitVec.getLsbD_append, BitVec.getLsbD_append, BitVec.getLsbD_append]
  simp

theorem State.irq_iff (s : State) : s.irq = true ↔ s.ctrlIE = true ∧ (s.done = true ∨ s.err = true) := by
  rw [State.irq, Bool.and_eq_true, Bool.or_eq_true]

end Sys2Proof.Machine

namespace Sys2Proof.Proofs

open Sys2Proof.Machine

/-- Settles O37: NBLK is a settled register, so its read answers `State.nblk` whatever BUSY is; it is read-only, so
`State.writeReg` leaves the state as it is. -/
theorem nblkReadsTheBlockCount : Obligations.NblkReadsTheBlockCount := by
  refine ⟨fun s rest ha => ⟨s.nblk, ?read, ?count, ?overflow⟩, ?write, ?reset⟩
  case read => exact step_readSettled (r := .nblk) rfl ha
  case count => exact State.nblk_toNat
  case overflow => exact State.nblk_of_overflow
  case write => exact fun s v rest ha => step_writeReg (r := .nblk) ha
  case reset =>
    have hlen : State.reset.len = 0 := by rw [State.len_eq]; rfl
    rw [State.nblk, hlen]
    rfl

/-- Settles O48: the read-back bits are the stored fields, whose combination the interrupt output is. -/
theorem irqIsEnabledCompletion : Obligations.IrqIsEnabledCompletion := by
  intro s
  rw [State.ctrlWord_bit_ie, State.statusWord_bit_done, State.statusWord_bit_err]
  exact s.irq_iff

end Sys2Proof.Proofs

/-! The host's accesses to the message buffer (R62 to R66), the register writes that R68 guards or ignores, and the
message bytes as words: big-endian (R64), and as schedule words of block 0 (R65). -/

namespace Sys2Proof.Machine

/-! ### A turn of the host on MSG -/

theorem step_msgWrite8 {s : State} {a : Nat} {v : Word} {rest : List Turn} (hv : v.toNat < 256)
    (ha : s.agenda = .host ⟨.write, .msg, a, 8, v⟩ :: rest) :
    step s = .next (({ s with agenda := rest } : State).msgWrite8 a (v.setWidth 8)) := by
  rw [step_host ha, hostTurn_of_decode (Txn.decode_msgWrite8 a hv)]
  rfl

theorem step_msgRead8 {s : State} {a : Nat} {v : Word} {rest : List Turn}
    (ha : s.agenda = .host ⟨.read, .msg, a, 8, v⟩ :: rest) :
    step s = .next (({ s with agenda := rest } : State).msgRead8 a) := by
  rw [step_host ha, hostTurn_of_decode (Txn.decode_msgRead8 a v)]
  rfl

theorem step_msgWrite32 {s : State} {a : Nat} {v : Word} {rest : List Turn}
    (ha : s.agenda = .host ⟨.write, .msg, a, 32, v⟩ :: rest) :
    step s = .next (({ s with agenda := rest } : State).msgWrite32 a v) := by
  rw [step_host ha, hostTurn_of_decode (Txn.decode_msgWrite32 a v)]
  rfl

theorem step_msgRead32 {s : State} {a : Nat} {v : Word} {rest : List Turn}
    (ha : s.agenda = .host ⟨.read, .msg, a, 32, v⟩ :: rest) :
    step s = .next (({ s with agenda := rest } : State).msgRead32 a) := by
  rw [step_host ha, hostTurn_of_decode (Txn.decode_msgRead32 a v)]
  rfl

/-! ### The MSG primitives, in range and not -/

theorem State.msgWordOk_iff (s : State) (a : Nat) :
    s.msgWordOk a = true ↔ a % 4 = 0 ∧ a + 4 ≤ s.msgCap.toNat := by
  rw [State.msgWordOk, Bool.and_eq_true, decide_eq_true_iff, decide_eq_true_iff]

theorem State.not_msgWordOk_iff (s : State) (a : Nat) :
    ¬s.msgWordOk a = true ↔ a % 4 ≠ 0 ∨ s.msgCap.toNat < a + 4 := by
  rw [State.msgWordOk_iff]
  omega

theorem State.msgWrite8_inRange {s : State} {a : Nat} (h : a < s.msgCap.toNat) (v : Byte) :
    s.msgWrite8 a v = s.guarded (State.storeByte a v) := if_pos h

theorem State.msgWrite8_outOfRange {s : State} {a : Nat} (h : s.msgCap.toNat ≤ a) (v : Byte) :
    s.msgWrite8 a v = s.badAccess := if_neg (Nat.not_lt.mpr h)

theorem State.msgRead8_inRange {s : State} {a : Nat} (h : a < s.msgCap.toNat) :
    s.msgRead8 a = s.answer (.u8 (s.msgByte a)) := if_pos h

theorem State.msgRead8_outOfRange {s : State} {a : Nat} (h : s.msgCap.toNat ≤ a) :
    s.msgRead8 a = s.badAccess.answer (.u8 0) := if_neg (Nat.not_lt.mpr h)

theorem State.msgWrite32_inRange {s : State} {a : Nat} (h : a % 4 = 0 ∧ a + 4 ≤ s.msgCap.toNat) (v : Word) :
    s.msgWrite32 a v = s.guarded (State.storeWord a v) := if_pos ((s.msgWordOk_iff a).mpr h)

theorem State.msgWrite32_bad {s : State} {a : Nat} (h : a % 4 ≠ 0 ∨ s.msgCap.toNat < a + 4) (v : Word) :
    s.msgWrite32 a v = s.badAccess := if_neg ((s.not_msgWordOk_iff a).mpr h)

theorem State.msgRead32_inRange {s : State} {a : Nat} (h : a % 4 = 0 ∧ a + 4 ≤ s.msgCap.toNat) :
    s.msgRead32 a = s.answer (.u32 (s.msgWord a)) := if_pos ((s.msgWordOk_iff a).mpr h)

theorem State.msgRead32_bad {s : State} {a : Nat} (h : a % 4 ≠ 0 ∨ s.msgCap.toNat < a + 4) :
    s.msgRead32 a = s.badAccess.answer (.u32 0) := if_neg ((s.not_msgWordOk_iff a).mpr h)

/-! ### Register writes by offset -/

/-- The offsets that R68 guards are offsets of registers. -/
theorem GuardedOffset.exists_reg {off : Nat} (h : GuardedOffset off) : ∃ r : Reg, r.offset = off := by
  rcases h with rfl | rfl | rfl | rfl | ⟨h4, ⟨hlo, hhi⟩ | ⟨hlo, hhi⟩⟩
  · exact ⟨.cmd, rfl⟩
  · exact ⟨.lenLo, rfl⟩
  · exact ⟨.lenHi, rfl⟩
  · exact ⟨.blkidx, rfl⟩
  · exact ⟨.h ⟨(off - 0x040) / 4, by omega⟩, by simp only [Reg.offset]; omega⟩
  · exact ⟨.blk ⟨(off - 0x080) / 4, by omega⟩, by simp only [Reg.offset]; omega⟩

/-- While BUSY = 1 a write to a guarded register is dropped (R68). -/
theorem State.writeReg_guarded_busy {s : State} {r : Reg} (hg : GuardedOffset r.offset) (hb : s.busy = true)
    (v : Word) : s.writeReg v r = s.dropWrite := by
  cases r with
  | cmd | lenLo | lenHi | blkidx | h _ | blk _ => rw [State.writeReg, State.guarded_busy hb]
  | id | ctrl | status | nblk | round | msgcap | wv _ | w _ | k _ | iv _ | dig _ =>
    simp only [GuardedOffset, Reg.offset] at hg
    omega

/-- A register that is neither guarded nor CTRL nor STATUS is read-only: a write to it is ignored (R68, R126). -/
theorem State.writeReg_readOnly {r : Reg} (hg : ¬GuardedOffset r.offset) (hc : r ≠ .ctrl) (hs : r ≠ .status)
    (s : State) (v : Word) : s.writeReg v r = s := by
  cases r with
  | ctrl => exact absurd rfl hc
  | status => exact absurd rfl hs
  | cmd | lenLo | lenHi | blkidx => exact absurd (by decide) hg
  | h _ | blk _ =>
    simp only [GuardedOffset, Reg.offset] at hg
    omega
  | id | nblk | round | msgcap | wv _ | w _ | k _ | iv _ | dig _ => rfl

/-- A write to a read-only register or to a reserved offset is ignored, whatever BUSY is (R39, R68). -/
theorem State.regWrite_ignored {off : Nat} (h4 : off % 4 = 0) (hg : ¬GuardedOffset off) (hc : off ≠ 0x004)
    (hs : off ≠ 0x00C) (s : State) (v : Word) : s.regWrite off v = s := by
  cases hr : Reg.ofOffset off with
  | none => simp [State.regWrite, hr]
  | some r =>
    obtain rfl := Reg.offset_of_ofOffset h4 hr
    rw [State.regWrite_offset]
    exact State.writeReg_readOnly hg (fun h => hc (by rw [h]; rfl)) (fun h => hs (by rw [h]; rfl)) s v

/-! ### Message bytes as words -/

/-- Two fields side by side, as a number. -/
theorem toNat_append_eq {n m : Nat} (x : BitVec n) (y : BitVec m) :
    (x ++ y).toNat = x.toNat * 2 ^ m + y.toNat := by
  rw [BitVec.toNat_append, ← Nat.shiftLeft_add_eq_or_of_lt y.isLt, Nat.shiftLeft_eq]

/-- be32 as a number: the first byte is the most significant (R14). -/
theorem be32_toNat (a b c d : Byte) :
    (be32 a b c d).toNat = a.toNat * 2 ^ 24 + b.toNat * 2 ^ 16 + c.toNat * 2 ^ 8 + d.toNat := by
  rw [be32, toNat_append_eq, toNat_append_eq, toNat_append_eq]
  omega

/-- Word k of padblock(L, j) is the big-endian word of its four bytes (R149). -/
theorem padBlock_getElem (f : Nat → Byte) (L j : Nat) {k : Nat} (hk : k < 16) :
    (padBlock f L j)[k] =
      be32 (padByte f L (64 * j + 4 * k)) (padByte f L (64 * j + (4 * k + 1))) (padByte f L (64 * j + (4 * k + 2)))
        (padByte f L (64 * j + (4 * k + 3))) := by
  rw [padBlock, Vector.getElem_ofFn]

/-- Before the end of the message the padded message is the message (R148). -/
theorem padByte_of_lt {L q : Nat} (h : q < L) (f : Nat → Byte) : padByte f L q = f q := if_pos h

/-- A word of block 0 that lies in the message is the MSG word at its address (R65, R148). -/
theorem State.padBlock_zero_word (s : State) {k : Nat} (hk : k < 16) (hL : 4 * k + 3 < s.len) :
    (padBlock s.msgByte s.len 0)[k] = s.msgWord (4 * k) := by
  rw [padBlock_getElem _ _ _ hk, Nat.mul_zero]
  simp only [Nat.zero_add]
  rw [padByte_of_lt (by omega), padByte_of_lt (by omega), padByte_of_lt (by omega), padByte_of_lt hL, State.msgWord]

end Sys2Proof.Machine

namespace Sys2Proof.Proofs

open Sys2Proof.Machine

/-- Settles O32: the register writes by what `State.writeReg` does to the register at the offset, the MSG writes because
the range check lets them through to the BUSY rule, which drops them. -/
theorem writesWhileBusy : Obligations.WritesWhileBusy := by
  intro s rest hb
  refine ⟨?guarded, ?byte, ?word, ?ctrl, ?status, ?ignored⟩
  case guarded =>
    intro off v hg ha
    obtain ⟨r, rfl⟩ := hg.exists_reg
    rw [step_writeReg ha, State.writeReg_guarded_busy hg]
    exacts [rfl, hb]
  case byte =>
    intro a v hr hv ha
    rw [step_msgWrite8 hv ha, State.msgWrite8_inRange, State.guarded_busy]
    exacts [rfl, hb, hr]
  case word =>
    intro a v h4 hr ha
    rw [step_msgWrite32 ha, State.msgWrite32_inRange, State.guarded_busy]
    exacts [rfl, hb, ⟨h4, hr⟩]
  case ctrl => exact fun v ha => step_writeReg (r := .ctrl) ha
  case status => exact fun v ha => step_writeReg (r := .status) ha
  case ignored =>
    intro off v h4 hl hg hc hs ha
    rw [step_regWrite h4 hl ha, State.regWrite_ignored h4 hg hc hs]

/-- Settles O41: in range and idle, a byte write is `State.storeByte`, whose law says what each byte of MSG is after
it. -/
theorem msgByteAccesses : Obligations.MsgByteAccesses := by
  intro s a v rest hr
  refine ⟨fun hb hv ha => ?write, fun ha => ?read⟩
  case write =>
    have hbyte := State.storeByte_msgByte { s with agenda := rest } a (v.setWidth 8)
    refine ⟨Memory.write s.msg a (v.setWidth 8), ?_, (hbyte a).trans (if_pos rfl),
      fun x hx => (hbyte x).trans (if_neg hx)⟩
    rw [step_msgWrite8 hv ha, State.msgWrite8_inRange, State.guarded_idle]
    exacts [rfl, hb, hr]
  case read =>
    rw [step_msgRead8 ha, State.msgRead8_inRange]
    exacts [rfl, hr]

/-- Settles O42: schedule words 0 to 15 are the block's, and those inside the message are MSG words; in range, aligned and
idle, a word write is `State.storeWord`; a word read answers the be32 of the four bytes. -/
theorem msgWordAccessesAreBigEndian : Obligations.MsgWordAccessesAreBigEndian := by
  refine ⟨fun s k hk => ?schedule, fun s a v rest h4 hr => ⟨fun hb ha => ?write, fun ha => ?read⟩⟩
  case schedule => rw [expandBlock_low _ k.isLt, s.padBlock_zero_word k.isLt hk]
  case write =>
    have hbyte := State.storeWord_msgByte { s with agenda := rest } a v
    refine ⟨State.storeWord a v { s with agenda := rest }, ?step, rfl, ?byte0, ?byte1, ?byte2, ?byte3, ?others⟩
    case step =>
      rw [step_msgWrite32 ha, State.msgWrite32_inRange, State.guarded_idle]
      exacts [hb, ⟨h4, hr⟩]
    case byte0 | byte1 | byte2 | byte3 => simp [hbyte, wordByte]
    case others =>
      intro x hx
      rw [hbyte, if_neg (by omega), if_neg (by omega), if_neg (by omega), if_neg (by omega)]
      rfl
  case read =>
    refine ⟨s.msgWord a, ?_, be32_toNat _ _ _ _⟩
    rw [step_msgRead32 ha, State.msgRead32_inRange]
    exacts [rfl, ⟨h4, hr⟩]

/-- Settles O43: the range check comes before the BUSY rule, so these accesses end in `State.badAccess` whatever BUSY
is. -/
theorem badMsgAccessesSetAerrOnly : Obligations.BadMsgAccessesSetAerrOnly := by
  intro s a v rest
  refine ⟨fun hbad => ?word, fun hr => ⟨fun hv ha => ?writeByte, fun ha => ?readByte⟩⟩
  case word =>
    refine ⟨fun ha => ?_, fun ha => ?_⟩
    · rw [step_msgWrite32 ha, State.msgWrite32_bad]
      exacts [rfl, hbad]
    · rw [step_msgRead32 ha, State.msgRead32_bad]
      exacts [rfl, hbad]
  case writeByte =>
    rw [step_msgWrite8 hv ha, State.msgWrite8_outOfRange]
    exacts [rfl, hr]
  case readByte =>
    rw [step_msgRead8 ha, State.msgRead8_outOfRange]
    exacts [rfl, hr]

end Sys2Proof.Proofs

/-! Command words: decoding by RSV and OPC (R91, R92), ERRCODE as STATUS shows it (R33), the accepted write to CMD (R93),
and the run of a command issued to an idle engine. -/

namespace Sys2Proof

/-- A word with RSV = 0 and an OPC below 8 decodes to the command that the opcode map names (R91). -/
theorem decode_of_rsv_zero {v : Word} {n : Nat} {i : Instr} (hr : v.toNat / 16 = 0) (hn : v.toNat % 16 = n)
    (h8 : n < 8) (hi : opcodeMap n = some i) : decode v = i := by
  have hv : v.toNat = n := by omega
  exact decode_legal (hv ▸ h8) (hv ▸ hi)

/-- RSV not 0, or OPC from 0x8 up, is a word from 8 up (R92, R104). -/
theorem decode_illegal_of_rsv_or_opc {v : Word} (h : v.toNat / 16 ≠ 0 ∨ 0x8 ≤ v.toNat % 16) :
    decode v = .illegal v :=
  decode_illegal (by omega)

end Sys2Proof

namespace Sys2Proof.Machine

/-- Bits 6:4 of STATUS are ERRCODE (R33). -/
theorem State.statusWord_errcode (s : State) : s.statusWord.extractLsb' 4 3 = s.errcodeField := by
  ext i hi
  rw [BitVec.getElem_extractLsb', State.statusWord, BitVec.getLsbD_append, BitVec.getLsbD_append,
    BitVec.getLsbD_append, BitVec.getLsbD_append, BitVec.getLsbD_append]
  simp [hi]

/-- Every illegal word does the same: the failed completion with ILLEGAL_COMMAND (R234). -/
theorem exec_illegal (v : Word) (s : State) : exec (.illegal v) s = .next (s.raiseError .illegalCommand) := rfl

/-- A write to CMD while BUSY = 0 is an acceptance (R93). -/
theorem step_cmdWrite_idle {s : State} {v : Word} {rest : List Turn} (hb : s.busy = false)
    (ha : s.agenda = .host ⟨.write, .reg, 0x008, 32, v⟩ :: rest) :
    step s = .next (({ s with agenda := rest } : State).accept v) := by
  rw [step_writeReg (r := .cmd) ha, State.writeReg, State.guarded_idle]
  exact hb

/-- A command issued to an idle engine, with the engine's turn next, runs on the state of its acceptance (R93, R95). -/
theorem run_two_issued {s t : State} {v : Word} (hb : s.busy = false)
    (h : exec (decode v) (({ s with agenda := [] } : State).accept v) = .next t) :
    run 2 { s with agenda := [.host ⟨.write, .reg, 0x008, 32, v⟩, .engine] } = .next t := by
  have hwrite : step { s with agenda := [.host ⟨.write, .reg, 0x008, 32, v⟩, .engine] } =
      .next (({ s with agenda := [.engine] } : State).accept v) := step_cmdWrite_idle hb rfl
  have hturn : step (({ s with agenda := [.engine] } : State).accept v) = .next t := by
    rw [step_engine rfl, engineTurn_busy rfl rfl]
    exact h
  exact (run_succ hwrite 1).trans (run_succ hturn 0)

end Sys2Proof.Machine

namespace Sys2Proof.Proofs

open Sys2Proof.Machine

/-- Settles O2: a word with RSV = 0 is looked up in the opcode map by its OPC, and every other word is from 8 up. -/
theorem commandWordsDecodeByRsvAndOpc : Obligations.CommandWordsDecodeByRsvAndOpc := by
  refine fun v => ⟨fun hr => ?legal, decode_illegal_of_rsv_or_opc⟩
  case legal =>
    refine ⟨fun h => ?_, fun h => ?_, fun h => ?_, fun h => ?_, fun h => ?_, fun h => ?_, fun h => ?_, fun h => ?_⟩
    all_goals exact decode_of_rsv_zero hr h (by decide) rfl

/-- Settles O11: an illegal word ends in `State.raiseError` whatever the word is, and issued from an idle engine it does so
on the state of its acceptance. -/
theorem illegalWordsFailAlike : Obligations.IllegalWordsFailAlike := by
  refine fun s v => ⟨decode_illegal_of_rsv_or_opc, ?completion, fun hv hb => ?issued⟩
  case completion =>
    refine ⟨s.raiseError .illegalCommand, exec_illegal v s, s.raiseError_fails .illegalCommand, ?code,
      fun u => exec_illegal u s⟩
    case code =>
      rw [State.statusWord_errcode]
      rfl
  case issued =>
    refine ⟨_, run_two_issued hb ?_, rfl⟩
    rw [decode_illegal_of_rsv_or_opc hv, exec_illegal]
    rfl

/-- Settles O30: while BUSY = 0 the write is `State.accept`. -/
theorem commandWriteIsAccepted : Obligations.CommandWriteIsAccepted :=
  fun _ _ _ hb ha => step_cmdWrite_idle hb ha

/-- Settles O31: CMD's offset is one of those that R68 guards, so this is a case of O32. -/
theorem commandWriteWhileBusyIsDropped : Obligations.CommandWriteWhileBusyIsDropped := by
  intro s v rest hb ha
  obtain ⟨guardedWrites, -⟩ := writesWhileBusy s rest hb
  exact guardedWrites 0x008 v (.inl rfl) ha

end Sys2Proof.Proofs

/-! What the ROMs K and IV hold (R120 to R125): the primes of R122 as the first 64 primes, the integer roots of R120 and R121,
and integer roots as the digits of real roots after the binary point. INIT (R128), which reads ROM IV. -/

namespace Sys2Proof.Machine

/-! ### Integer roots -/

/-- `y` is the largest integer with y^k ≤ x (R120, R121). -/
def IsFloorRoot (k x y : Nat) : Prop := y ^ k ≤ x ∧ x < (y + 1) ^ k

/-- The search keeps its two bounds: the root is at least `y` and below `y + 2 ^ bits`. -/
theorem rootFrom_isFloorRoot {k x bits y : Nat} (hlo : y ^ k ≤ x) (hhi : x < (y + 2 ^ bits) ^ k) :
    IsFloorRoot k x (rootFrom k x bits y) := by
  induction bits generalizing y with
  | zero => exact ⟨hlo, hhi⟩
  | succ bits ih =>
    rw [rootFrom]
    split
    case isTrue hbit => exact ih hbit (by rwa [Nat.add_assoc, ← Nat.two_mul, ← Nat.pow_succ'])
    case isFalse hbit => exact ih hlo (Nat.lt_of_not_le hbit)

theorem icbrt_isFloorRoot {x : Nat} (h : x < 2 ^ 120) : IsFloorRoot 3 x (icbrt x) :=
  rootFrom_isFloorRoot (Nat.zero_le x) (by simpa using h)

theorem isqrt_isFloorRoot {x : Nat} (h : x < 2 ^ 80) : IsFloorRoot 2 x (isqrt x) :=
  rootFrom_isFloorRoot (Nat.zero_le x) (by simpa using h)

/-! ### Fractional parts of real roots -/

/-- The digits of `r` after the point, to base `N`, are those of `r * N` before it, less the ones of `r`. -/
theorem floor_fract_mul {r : ℝ} (hr : 0 ≤ r) {N : Nat} (hN : N ≠ 0) : ⌊Int.fract r * N⌋₊ = ⌊r * N⌋₊ % N := by
  have hfract : Int.fract r * N = r * N - (⌊r⌋₊ * N : Nat) := by
    rw [Int.fract, ← natCast_floor_eq_intCast_floor hr, sub_mul, Nat.cast_mul]
  have hones : ⌊r⌋₊ = ⌊r * N⌋₊ / N := by
    rw [← Nat.floor_div_natCast, mul_div_cancel_right₀ r (Nat.cast_ne_zero.mpr hN)]
  rw [hfract, Nat.floor_sub_natCast, hones, Nat.mod_eq_sub_div_mul]

/-- The integer root of `p * N ^ k` is the floor of `N` times the real k-th root of `p`. -/
theorem IsFloorRoot.floor_root_mul {k p N y : Nat} {r : ℝ} (h : IsFloorRoot k (p * N ^ k) y) (hk : k ≠ 0) (hr : 0 ≤ r)
    (hp : r ^ k = p) : ⌊r * N⌋₊ = y := by
  have hscaled : (r * N) ^ k = ((p * N ^ k : Nat) : ℝ) := by rw [mul_pow, hp, Nat.cast_mul, Nat.cast_pow]
  have hrN : 0 ≤ r * N := mul_nonneg hr N.cast_nonneg
  obtain ⟨hlo, hhi⟩ := h
  refine (Nat.floor_eq_iff hrN).mpr ⟨?lower, ?upper⟩
  case lower =>
    rw [← pow_le_pow_iff_left₀ y.cast_nonneg hrN hk, hscaled]
    exact_mod_cast hlo
  case upper =>
    rw [← pow_lt_pow_iff_left₀ hrN (by positivity) hk, hscaled]
    exact_mod_cast hhi

/-- The two forms of R120 and of R121 agree: the first 32 bits after the point of the real root are the low 32 bits of the
integer root. -/
theorem IsFloorRoot.floor_fract_root {k p y : Nat} {r : ℝ} (h : IsFloorRoot k (p * 2 ^ (32 * k)) y) (hk : k ≠ 0)
    (hr : 0 ≤ r) (hp : r ^ k = p) : ⌊Int.fract r * 2 ^ 32⌋₊ = y % 2 ^ 32 := by
  rw [Nat.pow_mul] at h
  have hdigits := floor_fract_mul hr (N := 2 ^ 32) (by decide)
  rw [h.floor_root_mul hk hr hp] at hdigits
  exact_mod_cast hdigits

/-! ### The primes of the table -/

/-- A test of primality that the kernel runs fast, by one gcd and no search for a factor. -/
theorem prime_iff_coprime_factorial {n : Nat} :
    Nat.Prime n ↔ 2 ≤ n ∧ Nat.Coprime n (Nat.factorial (n - 1)) := by
  rw [Nat.prime_def_minFac]
  refine and_congr_right fun h => ?_
  have hle : n.minFac ≤ n := Nat.minFac_le (by omega)
  rw [Nat.coprime_factorial_iff (by omega)]
  omega

/-- The next value of `Nat.nth` after `a` is the first one past `a` with the property. -/
theorem nth_succ_eq {P : Nat → Prop} (hinf : {n | P n}.Infinite) {n a b : Nat} (ha : Nat.nth P n = a) (hab : a < b)
    (hb : P b) (hgap : ∀ m, a < m → m < b → ¬P m) : Nat.nth P (n + 1) = b := by
  have hlt : a < Nat.nth P (n + 1) := ha ▸ Nat.nth_strictMono hinf n.lt_succ_self
  have hge : b ≤ Nat.nth P (n + 1) := le_of_not_gt fun h => hgap _ hlt h (Nat.nth_mem_of_infinite hinf _)
  refine hge.antisymm' (le_of_not_gt fun h => ?_)
  have hle : b ≤ a := ha ▸ Nat.le_nth_of_lt_nth_succ h hb
  omega

/-- From one entry of the table to the next: both are primes, with none between them (R122). -/
theorem primeTable_step : ∀ j : Fin 63, primeTable[j.val] < primeTable[j.val + 1] ∧ Nat.Prime primeTable[j.val + 1] ∧
    ∀ m ∈ Finset.Ioo primeTable[j.val] primeTable[j.val + 1], ¬Nat.Prime m := by
  simp only [prime_iff_coprime_factorial]
  decide +kernel

theorem primeTable_eq_nth {j : Nat} (hj : j < 64) : primeTable[j] = Nat.nth Nat.Prime j := by
  induction j with
  | zero => exact Nat.nth_prime_zero_eq_two.symm
  | succ j ih =>
    obtain ⟨hlt, hprime, hgap⟩ := primeTable_step ⟨j, by omega⟩
    exact (nth_succ_eq Nat.infinite_setOfPred_prime (ih (by omega)).symm hlt hprime
      fun m ha hb => hgap m (Finset.mem_Ioo.mpr ⟨ha, hb⟩)).symm

/-! ### The rows of the tables -/

theorem nth_prime_lt (j : Fin 64) : Nat.nth Nat.Prime j.val < 2 ^ 16 := by
  rw [← primeTable_eq_nth j.isLt]
  revert j
  decide

/-- ROM K, row by row, in the exact integer form of R120. -/
theorem roundConstants_toNat (j : Fin 64) :
    roundConstants[j.val].toNat = icbrt (Nat.nth Nat.Prime j.val * 2 ^ 96) % 2 ^ 32 := by
  rw [← primeTable_eq_nth j.isLt]
  revert j
  decide +kernel

/-- ROM IV, row by row, in the exact integer form of R121. -/
theorem initialHash_toNat (k : Fin 8) :
    initialHash[k.val].toNat = isqrt (Nat.nth Nat.Prime k.val * 2 ^ 64) % 2 ^ 32 := by
  rw [← primeTable_eq_nth (j := k.val) (by omega)]
  revert k
  decide +kernel

/-! ### INIT -/

theorem exec_init (s : State) : exec .init s = .next s.initHash.succeed := rfl

theorem State.initHash_succeeds (s : State) : Succeeds s s.initHash.succeed := ⟨rfl, rfl, rfl, rfl, rfl⟩

end Sys2Proof.Machine

namespace Sys2Proof.Proofs

open Sys2Proof.Machine

/-- Settles O28: each row of ROM K holds the low bits of the integer cube root, which are the bits after the point of the
real one. -/
theorem roundConstantsAreCubeRootFractions : Obligations.RoundConstantsAreCubeRootFractions := by
  intro j p
  have hp : p < 2 ^ 16 := nth_prime_lt j
  have hrow : roundConstants[j.val].toNat = icbrt (p * 2 ^ 96) % 2 ^ 32 := roundConstants_toNat j
  have hroot : IsFloorRoot 3 (p * 2 ^ 96) (icbrt (p * 2 ^ 96)) := icbrt_isFloorRoot (by omega)
  have hreal : ((p : ℝ) ^ (1 / 3 : ℝ)) ^ 3 = p := by
    rw [one_div]
    exact_mod_cast Real.rpow_inv_natCast_pow p.cast_nonneg three_ne_zero
  have hfract := hroot.floor_fract_root three_ne_zero (Real.rpow_nonneg p.cast_nonneg _) hreal
  exact ⟨hrow.trans hfract.symm, _, hroot.1, hroot.2, hrow⟩

/-- Settles O29: each row of ROM IV holds the low bits of the integer square root, which are the bits after the point of
the real one. -/
theorem initialHashValuesAreSquareRootFractions : Obligations.InitialHashValuesAreSquareRootFractions := by
  intro k p
  have hp : p < 2 ^ 16 := nth_prime_lt (k.castLE (by decide))
  have hrow : initialHash[k.val].toNat = isqrt (p * 2 ^ 64) % 2 ^ 32 := initialHash_toNat k
  have hroot : IsFloorRoot 2 (p * 2 ^ 64) (isqrt (p * 2 ^ 64)) := isqrt_isFloorRoot (by omega)
  have hreal : (Real.sqrt p) ^ 2 = p := Real.sq_sqrt p.cast_nonneg
  have hfract := hroot.floor_fract_root two_ne_zero (Real.sqrt_nonneg p) hreal
  exact ⟨hrow.trans hfract.symm, _, hroot.1, hroot.2, hrow⟩

/-- Settles O12: INIT is `State.initHash`, which writes H alone, and then the successful completion. -/
theorem initLoadsTheInitialHashValues : Obligations.InitLoadsTheInitialHashValues := by
  refine ⟨decode_legal (by decide) rfl, fun s => ?_⟩
  have hinputs : KeepsInputs s s.initHash.succeed := (KeepsInputs.initHash s).trans (KeepsInputs.succeed _)
  exact ⟨_, exec_init s, rfl, rfl, rfl, rfl, rfl, rfl, rfl, s.initHash_succeeds, hinputs⟩

end Sys2Proof.Proofs

/-! The padding controller: the padded message as bytes (R140 to R148), the checks that LOAD, BLOCK and ONE_SHOT make in the
order of R263 (R146, R150, R151), and LOAD (R152). -/

namespace Sys2Proof.Machine

/-! ### A byte of the padded message, by its position (R148) -/

theorem padByte_marker (f : Nat → Byte) (L : Nat) : padByte f L L = 0x80 := by
  rw [padByte, if_neg (Nat.lt_irrefl L), if_pos rfl]

theorem padByte_zero {L q : Nat} (hL : L < q) (hF : q < lengthFieldStart L) (f : Nat → Byte) :
    padByte f L q = 0x00 := by
  rw [padByte, if_neg (by omega), if_neg (by omega), if_neg (by omega)]

theorem padByte_lengthField {L q : Nat} (hF : lengthFieldStart L ≤ q) (f : Nat → Byte) :
    padByte f L q = be64Byte (8 * L) (q - lengthFieldStart L) := by
  have hL := lt_lengthFieldStart L
  rw [padByte, if_neg (by omega), if_neg (by omega), if_pos hF]

/-! ### The padding of a whole message (R140, R142) -/

/-- The zero bytes fill the space from the marker to the length field (R142). -/
theorem zeroFill_add_eq (L : Nat) : L + 1 + zeroFill L = lengthFieldStart L := by
  unfold zeroFill lengthFieldStart blockCount
  omega

theorem zeroFill_le (L : Nat) : zeroFill L ≤ 63 := Nat.sub_le ..

/-- R142: the zero count is the smallest one that makes the padded message whole blocks. -/
theorem zeroFill_le_of_wholeBlocks {L z : Nat} (h : (L + 1 + z + 8) % 64 = 0) : zeroFill L ≤ z := by
  unfold zeroFill
  omega

theorem zeroFill_wholeBlocks (L : Nat) : (L + 1 + zeroFill L + 8) % 64 = 0 := by
  unfold zeroFill
  omega

/-- The zero count in the closed form of R142, over the integers. -/
theorem zeroFill_eq_emod (L : Nat) : (zeroFill L : Int) = (55 - (L : Int)) % 64 := by
  unfold zeroFill
  omega

theorem lengthFieldStart_add_eight (L : Nat) : lengthFieldStart L + 8 = 64 * blockCount L := by
  unfold lengthFieldStart blockCount
  omega

@[simp] theorem be64_length (v : Nat) : (be64 v).length = 8 := by
  rw [be64, List.length_map, List.length_range]

/-- The part of a padded message before its length field. -/
theorem pad_front_length (m : List Byte) :
    (m ++ [0x80] ++ List.replicate (zeroFill m.length) (0 : Byte)).length = lengthFieldStart m.length := by
  rw [← zeroFill_add_eq, List.length_append, List.length_append, List.length_replicate, List.length_singleton]

/-- A padded message is N(L) blocks (R147). -/
theorem pad_length (m : List Byte) : (pad m).length = 64 * blockCount m.length := by
  rw [pad, List.length_append, pad_front_length, be64_length, lengthFieldStart_add_eight]

/-- The last 8 bytes of a padded message are the length field. -/
theorem pad_drop_lengthField (m : List Byte) : (pad m).drop (lengthFieldStart m.length) = be64 (8 * m.length) :=
  List.drop_left' (pad_front_length m)

/-- The bytes of R148 are those of the whole padded message (R140). -/
theorem pad_getElem? {m : List Byte} {q : Nat} (h : q < (pad m).length) :
    (pad m)[q]? = some (padByte (fun a => m.getD a 0) m.length q) := by
  have hz := zeroFill_add_eq m.length
  rw [pad_length, ← lengthFieldStart_add_eight] at h
  rcases Nat.lt_or_ge q (lengthFieldStart m.length) with hF | hF
  · rw [pad, List.getElem?_append_left (by rwa [pad_front_length]), List.append_assoc]
    rcases Nat.lt_trichotomy q m.length with hq | rfl | hq
    · rw [List.getElem?_append_left hq, padByte_of_lt hq, List.getD_eq_getElem _ _ hq, List.getElem?_eq_getElem hq]
    · rw [List.getElem?_append_right le_rfl, Nat.sub_self, padByte_marker]
      rfl
    · obtain ⟨n, rfl⟩ : ∃ n, q = m.length + (n + 1) := ⟨q - m.length - 1, by omega⟩
      rw [List.getElem?_append_right (by omega), Nat.add_sub_cancel_left, padByte_zero hq hF, List.singleton_append,
        List.getElem?_cons_succ, List.getElem?_replicate_of_lt (by omega)]
  · obtain ⟨n, rfl⟩ := Nat.exists_eq_add_of_le hF
    rw [← List.getElem?_drop, pad_drop_lengthField, padByte_lengthField hF, Nat.add_sub_cancel_left, be64,
      List.getElem?_map, List.getElem?_range (by omega), Option.map_some]

/-! ### The length field as a number (R143) -/

/-- Read most significant byte first, the first n bytes of be64(v) are the top 8n bits of v (R14). -/
theorem foldl_be64Byte {v : Nat} (hv : v < 2 ^ 64) {n : Nat} (hn : n ≤ 8) :
    ((List.range n).map (be64Byte v)).foldl (fun x b => 256 * x + b.toNat) 0 = v / 256 ^ (8 - n) := by
  induction n with
  | zero => exact (Nat.div_eq_of_lt hv).symm
  | succ n ih =>
    have hsub : 8 - (n + 1) = 7 - n := by omega
    have hsucc : 8 - n = 7 - n + 1 := by omega
    rw [List.range_succ, List.map_append, List.foldl_append, ih (by omega), List.map_singleton, List.foldl_cons,
      List.foldl_nil, be64Byte_toNat, hsucc, Nat.pow_succ, ← Nat.div_div_eq_div_mul, Nat.div_add_mod, hsub]

theorem foldl_be64 {v : Nat} (hv : v < 2 ^ 64) :
    (be64 v).foldl (fun x b => 256 * x + b.toNat) 0 = v :=
  (foldl_be64Byte hv le_rfl).trans (Nat.div_one v)

/-! ### The checks of LOAD, BLOCK and ONE_SHOT (R263) -/

/-- R146: L ≥ 2^61 shows in the top three bits of LEN_HI. -/
theorem State.two_pow_61_le_len_iff (s : State) : 2 ^ 61 ≤ s.len ↔ s.lenHi.extractLsb' 29 3 ≠ 0 := by
  have hbits : (s.lenHi.extractLsb' 29 3).toNat = s.lenHi.toNat / 2 ^ 29 := by
    rw [BitVec.extractLsb'_toNat, Nat.shiftRight_eq_div_pow]
    omega
  rw [Ne, ← BitVec.toNat_inj, hbits, s.len_eq, BitVec.ofNat_eq_ofNat, BitVec.toNat_zero]
  omega

/-- A length error is raised by LOAD, BLOCK and ONE_SHOT alike. -/
theorem exec_of_lengthError {i : Instr} {s : State} {c : CommandError} (hi : i = .load ∨ i = .block ∨ i = .oneShot)
    (h : s.lengthError = some c) : exec i s = .next (s.raiseError c) := by
  rcases hi with rfl | rfl | rfl
  · exact execLoad_error (State.blockError_of_length h)
  · exact execBlock_error (State.blockError_of_length h)
  · exact execOneShot_error h

/-- A block error is raised by LOAD and BLOCK alike. -/
theorem exec_of_blockError {i : Instr} {s : State} {c : CommandError} (hi : i = .load ∨ i = .block)
    (h : s.blockError = some c) : exec i s = .next (s.raiseError c) := by
  rcases hi with rfl | rfl
  · exact execLoad_error h
  · exact execBlock_error h

theorem failsOnLength {i : Instr} (hi : i = .load ∨ i = .block ∨ i = .oneShot) (s : State) : FailsOnLength i s where
  overflow h := ⟨_, exec_of_lengthError hi (State.lengthError_overflow h), s.raiseError_fails _⟩
  range h hc := ⟨_, exec_of_lengthError hi (State.lengthError_range h hc), s.raiseError_fails _⟩

theorem failsOnIndex {i : Instr} (hi : i = .load ∨ i = .block) (s : State) : FailsOnIndex i s :=
  fun h hc hj =>
    ⟨_, exec_of_blockError hi (State.blockError_range (State.lengthError_none h hc) hj), s.raiseError_fails _⟩

/-- After a failed completion STATUS shows the code of the error (R33, R98). -/
theorem FailsWith.statusWord_code {c : CommandError} {s t : State} (h : FailsWith c s t) :
    t.statusWord.extractLsb' 4 3 = c.code := by
  rw [State.statusWord_errcode, State.errcodeField, h.errcode]
  rfl

/-! ### The successful completions -/

theorem State.loadBlock_succeeds (j : Nat) (s : State) : Succeeds s (s.loadBlock j).succeed := ⟨rfl, rfl, rfl, rfl, rfl⟩

/-- Byte n of BLK after LOAD is the padded message's at 64·j + n (R148, R149). -/
theorem State.loadBlock_succeed_blkByte (j : Nat) (s : State) (n : Fin 64) :
    (s.loadBlock j).succeed.blkByte n = padByte s.msgByte s.len (64 * j + n.val) :=
  padBlock_byte s.msgByte s.len j n.isLt

/-- ONE_SHOT completes with success on every length that passes its checks. -/
theorem exec_oneShot_succeeds {s : State} (h : s.lengthError = none) : ∃ t, exec .oneShot s = .next t ∧ Succeeds s t := by
  obtain ⟨-, -, -, herr, hcode, -⟩ := s.initHash.hashBlocks_frame (blockCount s.len)
  exact ⟨_, execOneShot_ok h, rfl, rfl, rfl, herr, hcode⟩

end Sys2Proof.Machine

namespace Sys2Proof.Proofs

open Sys2Proof.Machine

/-- Settles O13: the errors by the shared checks; on success BLK holds the bytes of `padByte`, which has one case for each
range of positions. -/
theorem loadWritesThePaddedBlock : Obligations.LoadWritesThePaddedBlock := by
  refine ⟨decode_legal (by decide) rfl,
    fun s => ⟨failsOnLength (.inl rfl) s, failsOnIndex (.inl rfl) s, fun h hc hj => ?success⟩⟩
  have hok : s.blockError = none := State.blockError_none (State.lengthError_none h hc) hj
  have hinputs : KeepsInputs s (s.loadBlock s.blkidx.toNat).succeed :=
    (KeepsInputs.loadBlock _ s).trans (KeepsInputs.succeed _)
  refine ⟨_, execLoad_ok hok, fun n => ?bytes, rfl, rfl, rfl, rfl, rfl, rfl, s.loadBlock_succeeds _, hinputs⟩
  intro q F
  rw [State.loadBlock_succeed_blkByte]
  refine ⟨fun hq => padByte_of_lt hq _, fun hq => ?marker, fun hL hF => padByte_zero hL hF _, fun hF => ?lengthField⟩
  case marker => exact hq ▸ padByte_marker _ _
  case lengthField =>
    rw [padByte_lengthField hF, be64Byte_toNat]
    rfl

/-- Settles O14: the first of the shared checks, and the bits of L that it looks at. -/
theorem lengthOverflowFailsFirst : Obligations.LengthOverflowFailsFirst := by
  refine ⟨State.two_pow_61_le_len_iff, fun i s hi h => ?_⟩
  obtain ⟨t, hexec, hfails⟩ := (failsOnLength hi s).overflow h
  exact ⟨t, hexec, hfails, hfails.statusWord_code⟩

/-- Settles O15: the second of the shared checks, which a length equal to MSG_CAP passes. -/
theorem lengthBeyondTheBufferFails : Obligations.LengthBeyondTheBufferFails := by
  refine ⟨fun i s hi h hc => ?_, fun s hc => exec_oneShot_succeeds (State.lengthError_fits hc.le)⟩
  obtain ⟨t, hexec, hfails⟩ := (failsOnLength hi s).range h hc
  exact ⟨t, hexec, hfails, hfails.statusWord_code⟩

/-- Settles O16: the third of the checks, which LOAD and BLOCK share. -/
theorem blockIndexBeyondTheMessageFails : Obligations.BlockIndexBeyondTheMessageFails := by
  intro i s hi h hc hj
  obtain ⟨t, hexec, hfails⟩ := failsOnIndex hi s h hc hj
  exact ⟨t, hexec, hfails, hfails.statusWord_code⟩

/-- Settles O27: the positions between L and the length field by `pad_getElem?`, the length field by its fold, and the zero
count by the arithmetic of R142. -/
theorem paddedMessageHasItsShape : Obligations.PaddedMessageHasItsShape := by
  intro m hm L
  have hlen : (pad m).length = 64 * blockCount L := pad_length m
  have hz : L + 1 + zeroFill L = lengthFieldStart L := zeroFill_add_eq L
  have h8 : lengthFieldStart L + 8 = 64 * blockCount L := lengthFieldStart_add_eight L
  have hle : zeroFill L ≤ 63 := zeroFill_le L
  have hF : (pad m).length - 8 = lengthFieldStart L := by omega
  refine ⟨hlen, Nat.le_add_left .., by omega, by omega, ?message, ?marker, fun q hL hq => ?zero, ?bitLength, by omega,
    zeroFill_wholeBlocks L, fun z => zeroFill_le_of_wholeBlocks, zeroFill_eq_emod L, hle⟩
  case message =>
    rw [pad, List.append_assoc, List.append_assoc]
    exact List.take_left
  case marker =>
    have hL : L < (pad m).length := by omega
    rw [pad_getElem? hL, padByte_marker]
  case zero =>
    rw [pad_getElem? (by omega), padByte_zero hL (hF ▸ hq)]
  case bitLength =>
    rw [hF, pad_drop_lengthField]
    exact foldl_be64 (by omega)

end Sys2Proof.Proofs

/-! The message scheduler: the block's words by their bytes (R25, R170), the recurrence in the library's rotations (R15, R171),
and EXPAND (R173). -/

namespace Sys2Proof.Machine

/-! ### Bytes of the block buffer -/

/-- Byte n of word k of BLK, n = 0..3, is byte 4k + n of the block (R25). -/
theorem State.blkByte_of_word (s : State) {k n : Nat} (hk : k < 16) (hn : n < 4) :
    s.blkByte ⟨4 * k + n, by omega⟩ = wordByte s.blk[k] n := by
  have hdiv : (4 * k + n) / 4 = k := by omega
  have hmod : (4 * k + n) % 4 = n := by omega
  simp only [State.blkByte, hdiv, hmod]

/-- Word k of BLK is the big-endian word of its four bytes (R170). -/
theorem State.blk_eq_be32 (s : State) {k : Nat} (hk : k < 16) :
    s.blk[k] = be32 (s.blkByte ⟨4 * k, by omega⟩) (s.blkByte ⟨4 * k + 1, by omega⟩) (s.blkByte ⟨4 * k + 2, by omega⟩)
      (s.blkByte ⟨4 * k + 3, by omega⟩) := by
  have hfirst : s.blkByte ⟨4 * k, by omega⟩ = wordByte s.blk[k] 0 := s.blkByte_of_word (n := 0) hk (by decide)
  rw [hfirst, s.blkByte_of_word hk (by decide), s.blkByte_of_word hk (by decide), s.blkByte_of_word hk (by decide),
    be32_wordByte]

/-! ### The operators of the recurrence -/

theorem ssig0_eq (x : Word) : ssig0 x = x.rotateRight 7 ^^^ x.rotateRight 18 ^^^ (x >>> 3) := by
  rw [ssig0, rotr_eq_rotateRight x (by decide), rotr_eq_rotateRight x (by decide)]

theorem ssig1_eq (x : Word) : ssig1 x = x.rotateRight 17 ^^^ x.rotateRight 19 ^^^ (x >>> 10) := by
  rw [ssig1, rotr_eq_rotateRight x (by decide), rotr_eq_rotateRight x (by decide)]

/-! ### EXPAND -/

theorem exec_expand (s : State) : exec .expand s = .next s.expandW.succeed := rfl

theorem State.expandW_succeeds (s : State) : Succeeds s s.expandW.succeed := ⟨rfl, rfl, rfl, rfl, rfl⟩

end Sys2Proof.Machine

namespace Sys2Proof.Proofs

open Sys2Proof.Machine

/-- Settles O17: EXPAND is `State.expandW`, which writes W alone, and then the successful completion; W is `expandBlock` of
BLK, whose first 16 words are the block's and whose others follow the recurrence. -/
theorem expandComputesTheSchedule : Obligations.ExpandComputesTheSchedule := by
  refine ⟨decode_legal (by decide) rfl, fun s => ?_⟩
  have hw : s.expandW.succeed.w = expandBlock s.blk := rfl
  have hinputs : KeepsInputs s s.expandW.succeed := (KeepsInputs.expandW s).trans (KeepsInputs.succeed _)
  refine ⟨_, exec_expand s, fun k => ?block, fun n => ?recurrence, rfl, rfl, rfl, rfl, rfl, rfl, s.expandW_succeeds,
    hinputs⟩
  case block =>
    rw [hw, expandBlock_low _ k.isLt]
    exact ⟨rfl, s.blk_eq_be32 k.isLt⟩
  case recurrence =>
    rw [hw, expandBlock_high _ n.isLt, scheduleWord, ssig0_eq, ssig1_eq]

end Sys2Proof.Proofs

/-! The compression engine: the round in the library's rotations (R15, R191), and COMPRESS (R195). -/

namespace Sys2Proof.Machine

/-! ### The operators of the round -/

theorem bsig0_eq (x : Word) : bsig0 x = x.rotateRight 2 ^^^ x.rotateRight 13 ^^^ x.rotateRight 22 := by
  rw [bsig0, rotr_eq_rotateRight x (by decide), rotr_eq_rotateRight x (by decide), rotr_eq_rotateRight x (by decide)]

theorem bsig1_eq (x : Word) : bsig1 x = x.rotateRight 6 ^^^ x.rotateRight 11 ^^^ x.rotateRight 25 := by
  rw [bsig1, rotr_eq_rotateRight x (by decide), rotr_eq_rotateRight x (by decide), rotr_eq_rotateRight x (by decide)]

/-- The round of R191 with its operators written out (R15). -/
theorem roundStep_eq (v : Vector Word 8) (k w : Word) :
    roundStep v k w =
      let temp1 := v[7] + (v[4].rotateRight 6 ^^^ v[4].rotateRight 11 ^^^ v[4].rotateRight 25) +
        ((v[4] &&& v[5]) ^^^ (~~~v[4] &&& v[6])) + k + w
      let temp2 := (v[0].rotateRight 2 ^^^ v[0].rotateRight 13 ^^^ v[0].rotateRight 22) +
        ((v[0] &&& v[1]) ^^^ (v[0] &&& v[2]) ^^^ (v[1] &&& v[2]))
      #v[temp1 + temp2, v[0], v[1], v[2], v[3] + temp1, v[4], v[5], v[6]] := by
  rw [← bsig1_eq, ← bsig0_eq]
  rfl

/-! ### COMPRESS -/

theorem exec_compress (s : State) : exec .compress s = .next s.compressW.succeed := rfl

theorem State.compressW_succeeds (s : State) : Succeeds s s.compressW.succeed := ⟨rfl, rfl, rfl, rfl, rfl⟩

end Sys2Proof.Machine

namespace Sys2Proof.Proofs

open Sys2Proof.Machine

/-- Settles O18: COMPRESS is `State.compressW` and then the successful completion; the working variables are `roundsUpTo`,
seeded from H, and each next one is the round of R191; WV takes those after 64 rounds, and H adds them. -/
theorem compressRunsSixtyFourRounds : Obligations.CompressRunsSixtyFourRounds := by
  refine ⟨decode_legal (by decide) rfl, fun s => ?_⟩
  have hwv : s.compressW.succeed.wv = roundsUpTo s.h s.w 64 := rounds64_eq s.h s.w
  have hh : s.compressW.succeed.h = addWords s.h (roundsUpTo s.h s.w 64) := by
    rw [State.succeed_h, State.compressW_h, rounds64_eq]
  have hinputs : KeepsInputs s s.compressW.succeed := (KeepsInputs.compressW s).trans (KeepsInputs.succeed _)
  refine ⟨_, roundsUpTo s.h s.w, exec_compress s, rfl, fun i => ?round, hwv, fun k => ?hash, rfl, rfl, rfl, rfl, rfl,
    s.compressW_succeeds, hinputs⟩
  case round =>
    exact (roundsUpTo_succ s.h s.w i.isLt).trans (roundStep_eq ..)
  case hash =>
    rw [hh, addWords_getElem _ _ k.isLt]

end Sys2Proof.Proofs

/-! The digest serializer: the digest's bytes by the words of DIG (R29, R220), and FINALIZE (R222). -/

namespace Sys2Proof.Machine

/-! ### Bytes of the digest -/

/-- Byte n of word k of DIG, n = 0..3, is byte 4k + n of the digest (R29). -/
theorem State.digest_of_word (s : State) {k n : Nat} (hk : k < 8) (hn : n < 4) :
    s.digest[4 * k + n] = wordByte s.dig[k] n := by
  have hdiv : (4 * k + n) / 4 = k := by omega
  have hmod : (4 * k + n) % 4 = n := by omega
  simp only [State.digest, Vector.getElem_ofFn, State.digestByte, hdiv, hmod]

/-! ### FINALIZE -/

theorem exec_finalize (s : State) : exec .finalize s = .next s.serializeH.succeed := rfl

theorem State.serializeH_succeeds (s : State) : Succeeds s s.serializeH.succeed := ⟨rfl, rfl, rfl, rfl, rfl⟩

end Sys2Proof.Machine

namespace Sys2Proof.Proofs

open Sys2Proof.Machine

/-- Settles O19: FINALIZE is `State.serializeH`, which writes DIG alone, and then the successful completion; DIG is H, and
each byte of the digest is a byte of one of its words. -/
theorem finalizeSerializesTheHashState : Obligations.FinalizeSerializesTheHashState := by
  refine ⟨decode_legal (by decide) rfl, fun s => ?_⟩
  have hdig : s.serializeH.succeed.dig = s.h := rfl
  have hinputs : KeepsInputs s s.serializeH.succeed := (KeepsInputs.serializeH s).trans (KeepsInputs.succeed _)
  refine ⟨_, exec_finalize s, fun k n => ?bytes, hdig, rfl, rfl, rfl, rfl, rfl, rfl, s.serializeH_succeeds, hinputs⟩
  case bytes =>
    rw [State.digest_of_word _ k.isLt n.isLt, wordByte_toNat _ n.isLt]
    simp only [hdig]

end Sys2Proof.Proofs

/-! The command sequencer: NOP (R233), BLOCK (R232) as three commands, and ONE_SHOT (R230) as the document's hash of the whole
message. -/

namespace Sys2Proof.Machine

/-! ### NOP and BLOCK -/

theorem exec_nop (s : State) : exec .nop s = .next s.succeed := rfl

theorem State.hashBlock_succeeds (j : Nat) (s : State) : Succeeds s (s.hashBlock j).succeed := ⟨rfl, rfl, rfl, rfl, rfl⟩

/-- LOAD, EXPAND and COMPRESS, each with its own completion, leave what one block step and one completion leave: a completion
touches nothing that the next command reads (R232). -/
theorem State.hashBlock_by_commands (j : Nat) (s : State) :
    ((s.loadBlock j).succeed.expandW.succeed.compressW).succeed = (s.hashBlock j).succeed := rfl

/-! ### The message in the buffer, and its padded blocks -/

@[simp] theorem State.message_length (s : State) : s.message.length = s.len := by
  rw [State.message, List.length_map, List.length_range]

theorem State.message_getD (s : State) {a : Nat} (h : a < s.len) : s.message.getD a 0 = s.msgByte a := by
  rw [List.getD_eq_getElem _ _ (by rwa [s.message_length])]
  simp only [State.message, List.getElem_map, List.getElem_range]

/-- Block j of the whole padded message is padblock(L, j) (R140, R148). -/
theorem blockOf_pad {m : List Byte} {j : Nat} (hj : j < blockCount m.length) :
    blockOf (pad m) j = padBlock (fun a => m.getD a 0) m.length j := by
  have hlen := pad_length m
  have hbyte : ∀ n < 64, (pad m).getD (64 * j + n) 0 = padByte (fun a => m.getD a 0) m.length (64 * j + n) := by
    intro n hn
    rw [List.getD_eq_getElem?_getD, pad_getElem? (by omega), Option.getD_some]
  ext k hk : 1
  rw [padBlock_getElem _ _ _ hk, blockOf, Vector.getElem_ofFn, hbyte _ (by omega), hbyte _ (by omega),
    hbyte _ (by omega), hbyte _ (by omega)]

/-- What keeps the inputs pads the same message: its blocks are those of the whole padded message. -/
theorem KeepsInputs.padBlock_eq {s t : State} (h : KeepsInputs s t) {j : Nat} (hj : j < blockCount s.len) :
    padBlock t.msgByte t.len j = blockOf (pad s.message) j := by
  have hblock : blockOf (pad s.message) j = padBlock (fun a => s.message.getD a 0) s.len j := by
    rw [blockOf_pad (by rwa [s.message_length]), s.message_length]
  rw [hblock, h.len]
  exact padBlock_congr (fun a ha => (h.msg_byte a).trans (s.message_getD ha).symm) j

/-! ### The blocks in order (R196) -/

/-- From the initial hash values, n block steps leave the chaining value of the first n blocks in H. -/
theorem State.hashBlocks_h {s : State} (h0 : s.h = initialHash) {n : Nat} (hn : n ≤ blockCount s.len) :
    (s.hashBlocks n).h = hashChain (pad s.message) n := by
  induction n with
  | zero => exact h0
  | succ n ih =>
    rw [State.hashBlocks_succ, State.hashBlock_h, ih (by omega), (KeepsInputs.hashBlocks s n).padBlock_eq hn, hashChain]

/-- What the last of n + 1 block steps leaves in BLK, W and WV. -/
theorem State.hashBlocks_last {s : State} (h0 : s.h = initialHash) {n : Nat} (hn : n < blockCount s.len) :
    (s.hashBlocks (n + 1)).blk = blockOf (pad s.message) n ∧
      (s.hashBlocks (n + 1)).w = expandBlock (blockOf (pad s.message) n) ∧
      (s.hashBlocks (n + 1)).wv = rounds64 (hashChain (pad s.message) n) (expandBlock (blockOf (pad s.message) n)) := by
  rw [State.hashBlocks_succ, State.hashBlock_blk, State.hashBlock_w, State.hashBlock_wv, State.hashBlocks_h h0 hn.le,
    (KeepsInputs.hashBlocks s n).padBlock_eq hn]
  exact ⟨rfl, rfl, rfl⟩

/-! ### ONE_SHOT -/

/-- The data path of ONE_SHOT (R230), without its checks and its completion. -/
def State.hashMessage (s : State) : State := (s.initHash.hashBlocks (blockCount s.len)).serializeH

theorem exec_oneShot_of_fits {s : State} (hc : s.len ≤ s.msgCap.toNat) :
    exec .oneShot s = .next s.hashMessage.succeed :=
  execOneShot_ok (State.lengthError_fits hc)

theorem State.hashMessage_succeeds (s : State) : Succeeds s s.hashMessage.succeed := by
  obtain ⟨-, -, -, herr, hcode, -⟩ := s.initHash.hashBlocks_frame (blockCount s.len)
  exact ⟨rfl, rfl, rfl, herr, hcode⟩

theorem KeepsInputs.hashMessage (s : State) : KeepsInputs s s.hashMessage :=
  ((KeepsInputs.initHash s).trans (KeepsInputs.hashBlocks _ _)).trans (KeepsInputs.serializeH _)

@[simp] theorem State.hashMessage_blkidx (s : State) : s.hashMessage.blkidx = s.blkidx := by
  obtain ⟨-, -, -, -, -, -, hidx, -⟩ := s.initHash.hashBlocks_frame (blockCount s.len)
  exact hidx

theorem State.hashMessage_h (s : State) : s.hashMessage.h = hashChain (pad s.message) (blockCount s.len) :=
  State.hashBlocks_h (s := s.initHash) rfl le_rfl

/-- What the last block of the message leaves in BLK, W and WV. -/
theorem State.hashMessage_lastBlock (s : State) :
    s.hashMessage.blk = blockOf (pad s.message) (blockCount s.len - 1) ∧
      s.hashMessage.w = expandBlock s.hashMessage.blk ∧
      s.hashMessage.wv = rounds64 (hashChain (pad s.message) (blockCount s.len - 1)) s.hashMessage.w := by
  have hlast : blockCount s.len - 1 < blockCount s.len := Nat.lt_succ_self _
  obtain ⟨hblk, hw, hwv⟩ := State.hashBlocks_last (s := s.initHash) rfl hlast
  exact ⟨hblk, hw.trans (congrArg _ hblk.symm), hwv.trans (congrArg _ hw.symm)⟩

/-- Below the document's length limit its `one_shot` chains over all N(L) blocks (R147, R230). -/
theorem oneShotDigest_eq {m : List Byte} (h : m.length < 2 ^ 61) :
    oneShotDigest m = some (serialize (hashChain (pad m) (blockCount m.length))) := by
  rw [oneShotDigest, padGuarded, if_neg (by omega), Option.map_some, pad_length, Nat.mul_div_cancel_left _ (by decide)]

/-- The digest bytes are the serialized words of DIG (R220, R221). -/
theorem State.digest_eq_serialize (s : State) : s.digest = serialize s.dig := rfl

theorem State.oneShotDigest_message {s : State} (h : s.len < 2 ^ 61) :
    oneShotDigest s.message = some s.hashMessage.digest := by
  have hdig : s.hashMessage.dig = s.hashMessage.h := rfl
  rw [oneShotDigest_eq (by rwa [s.message_length]), s.message_length, State.digest_eq_serialize, hdig, s.hashMessage_h]

end Sys2Proof.Machine

namespace Sys2Proof.Proofs

open Sys2Proof.Machine

/-- Settles O10: NOP is `State.succeed` alone; issued from an idle engine it runs on the state of its acceptance, which has
cleared ERR and ERRCODE. -/
theorem nopOnlyCompletes : Obligations.NopOnlyCompletes := by
  have hword : decode 0x00000000 = .nop := decode_legal (by decide) rfl
  refine ⟨hword, exec_nop, fun s hb => ⟨_, run_two_issued hb ?_, rfl⟩⟩
  rw [hword, exec_nop]
  rfl

/-- Settles O20: the errors by the shared checks; on success the three commands run one after the other leave what the block
step of BLOCK leaves, which keeps DIG and the inputs. -/
theorem blockIsLoadExpandCompress : Obligations.BlockIsLoadExpandCompress := by
  refine ⟨decode_legal (by decide) rfl, fun s => ⟨failsOnLength (.inr (.inl rfl)) s, failsOnIndex (.inr rfl) s,
    fun h hc hj => ?_⟩⟩
  have hok : s.blockError = none := State.blockError_none (State.lengthError_none h hc) hj
  refine ⟨_, _, _, execLoad_ok hok, exec_expand _, exec_compress _, ?_⟩
  rw [State.hashBlock_by_commands]
  exact ⟨execBlock_ok hok, rfl, s.hashBlock_succeeds _, (KeepsInputs.hashBlock _ s).trans (KeepsInputs.succeed _)⟩

/-- Settles O22: the errors by the shared checks; on success the block steps from the initial hash values chain over the blocks
of the whole padded message, and DIG takes the last chaining value. -/
theorem oneShotComputesTheDigestOfTheMessage : Obligations.OneShotComputesTheDigestOfTheMessage := by
  refine ⟨decode_legal (by decide) rfl, fun s => ⟨failsOnLength (.inr (.inr rfl)) s, fun hc => ?_⟩⟩
  have hlen : s.len < 2 ^ 61 := (State.len_lt_of_fits hc).trans (by decide)
  obtain ⟨hblk, hw, hwv⟩ := s.hashMessage_lastBlock
  exact ⟨_, exec_oneShot_of_fits hc, State.oneShotDigest_message hlen, rfl, s.hashMessage_h, hblk, hw, hwv, rfl,
    s.hashMessage_blkidx, s.hashMessage_succeeds, (KeepsInputs.hashMessage s).trans (KeepsInputs.succeed _)⟩

end Sys2Proof.Proofs

/-! Host programs run turn by turn on an idle engine: what a sequence of turns leaves in the data registers, and the host
sequence of R231 against ONE_SHOT. -/

namespace Sys2Proof.Machine

/-! ### The data of a state, and where turns lead -/

/-- A state with its control part blanked: CMD, PENDING, the completion status, the coming turns and the host's answers. What
is left is all that a command computes from and into. -/
def State.data (s : State) : State :=
  { s with
    cmd := 0, pending := none, busy := false, done := false, err := false, errcode := none, agenda := [], answers := [] }

/-- The turns, run from any idle state with the data of `s`, end in an idle state with the data of `t`. -/
def TurnsLead (turns : List Turn) (s t : State) : Prop :=
  ∀ (u : State) (rest : List Turn), u.busy = false → u.agenda = turns ++ rest → u.data = s.data →
    ∃ v, run turns.length u = .next v ∧ v.busy = false ∧ v.agenda = rest ∧ v.data = t.data

theorem TurnsLead.nil (s : State) : TurnsLead [] s s :=
  fun u _ hb ha hd => ⟨u, rfl, hb, ha, hd⟩

/-- One turn leads where its step from an idle state leads. -/
theorem TurnsLead.single {x : Turn} {s t : State}
    (h : ∀ (u : State) (rest : List Turn), u.busy = false → u.agenda = x :: rest → u.data = s.data →
      ∃ v, step u = .next v ∧ v.busy = false ∧ v.agenda = rest ∧ v.data = t.data) : TurnsLead [x] s t := by
  intro u rest hb ha hd
  obtain ⟨v, hstep, hv⟩ := h u rest hb ha hd
  exact ⟨v, run_succ hstep 0, hv⟩

theorem TurnsLead.append {xs ys : List Turn} {s t r : State} (h : TurnsLead xs s t) (k : TurnsLead ys t r) :
    TurnsLead (xs ++ ys) s r := by
  intro u rest hb ha hd
  obtain ⟨v, hrun, hvb, hva, hvd⟩ := h u (ys ++ rest) hb (by rw [ha, List.append_assoc]) hd
  obtain ⟨w, hrun', hw⟩ := k v rest hvb hva hvd
  exact ⟨w, by rw [List.length_append, run_add hrun, hrun'], hw⟩

/-! ### The lines of a host program -/

theorem decode_encode {i : Instr} (h : i.wellFormed = true) : decode (encode i) = i := by
  cases i
  case illegal v => exact decode_illegal (of_decide_eq_true h)
  all_goals exact decode_legal (by decide) rfl

/-- A poll of STATUS changes no data. -/
theorem TurnsLead.pollStatus (s : State) : TurnsLead [(HostLine.rd .status).turn] s s :=
  TurnsLead.single fun _ _ hb ha hd => ⟨_, step_readSettled (r := .status) rfl ha, hb, rfl, hd⟩

theorem TurnsLead.writeBlkidx (s : State) (v : Word) :
    TurnsLead [(HostLine.wr .blkidx v).turn] s { s with blkidx := v } := by
  refine TurnsLead.single fun u rest hb ha hd => ⟨{ u with agenda := rest, blkidx := v }, ?step, hb, rfl, ?data⟩
  case step =>
    rw [step_writeReg (r := .blkidx) ha, State.writeReg, State.guarded_idle]
    exact hb
  case data => exact congrArg (fun d : State => { d with blkidx := v }) hd

/-- A command that succeeds by way of `f` on the data of `s`, issued and waited for, leads to `f s`, provided that `f` reads
and writes data only (R93, R95, R97, R103). -/
theorem TurnsLead.command {i : Instr} {s : State} {f : State → State} (hi : i.wellFormed = true)
    (hexec : ∀ u : State, u.data = s.data → exec i u = .next (f u).succeed)
    (hdata : ∀ u : State, (f u).data = f u.data) (hagenda : ∀ u : State, (f u).agenda = u.agenda) :
    TurnsLead (runTurns 0 i) s (f s) := by
  have hcommand : TurnsLead [(cmdLine i).turn, .engine] s (f s) := by
    intro u rest hb ha hd
    have hwrite : step u = .next (({ u with agenda := .engine :: rest } : State).accept (encode i)) :=
      step_cmdWrite_idle hb ha
    have hturn : step (({ u with agenda := .engine :: rest } : State).accept (encode i)) =
        .next (f (({ u with agenda := rest } : State).accept (encode i))).succeed := by
      rw [step_engine rfl, engineTurn_busy rfl rfl, decode_encode hi]
      exact hexec _ hd
    refine ⟨_, (run_succ hwrite 1).trans (run_succ hturn 0), rfl, hagenda _, ?_⟩
    calc (f (({ u with agenda := rest } : State).accept (encode i))).data
      _ = f u.data := hdata _
      _ = (f s).data := by rw [hd, hdata]
  exact hcommand.append (TurnsLead.pollStatus _)

/-! ### The commands of R231, issued and waited for -/

theorem TurnsLead.init (s : State) : TurnsLead (runTurns 0 .init) s s.initHash :=
  .command rfl (fun u _ => exec_init u) (fun _ => rfl) fun _ => rfl

theorem TurnsLead.expand (s : State) : TurnsLead (runTurns 0 .expand) s s.expandW :=
  .command rfl (fun u _ => exec_expand u) (fun _ => rfl) fun _ => rfl

theorem TurnsLead.compress (s : State) : TurnsLead (runTurns 0 .compress) s s.compressW :=
  .command rfl (fun u _ => exec_compress u) (fun _ => rfl) fun _ => rfl

theorem TurnsLead.finalize (s : State) : TurnsLead (runTurns 0 .finalize) s s.serializeH :=
  .command rfl (fun u _ => exec_finalize u) (fun _ => rfl) fun _ => rfl

theorem TurnsLead.load {s : State} {j : Nat} (h : s.blockError = none) (hj : s.blkidx.toNat = j) :
    TurnsLead (runTurns 0 .load) s (s.loadBlock j) := by
  refine .command (f := State.loadBlock j) rfl (fun u hd => ?_) (fun _ => rfl) fun _ => rfl
  have hcheck : u.blockError = s.blockError := (congrArg State.blockError hd :)
  have hidx : u.blkidx = s.blkidx := (congrArg State.blkidx hd :)
  rw [← hj, ← hidx]
  exact execLoad_ok (hcheck.trans h)

/-! ### The blocks by single commands -/

theorem KeepsInputs.lengthError {s t : State} (h : KeepsInputs s t) : t.lengthError = s.lengthError := by
  rw [State.lengthError, State.lengthError, h.len, h.msgcap]

/-- BLKIDX <- j, then LOAD, EXPAND and COMPRESS, lead where one block step leads, with BLKIDX at j. -/
theorem TurnsLead.block {s : State} {j : Nat} (hlen : s.lengthError = none) (hj : j < blockCount s.len)
    (hword : j < 2 ^ 32) :
    TurnsLead ((HostLine.wr .blkidx (BitVec.ofNat 32 j)).turn :: runTurns 0 .load ++
        (runTurns 0 .expand ++ runTurns 0 .compress)) s
      { s.hashBlock j with blkidx := BitVec.ofNat 32 j } := by
  have hidx : (BitVec.ofNat 32 j).toNat = j := (BitVec.toNat_ofNat ..).trans (Nat.mod_eq_of_lt hword)
  have hload := TurnsLead.load (s := { s with blkidx := BitVec.ofNat 32 j })
    (State.blockError_none hlen (hidx.trans_lt hj)) hidx
  exact ((TurnsLead.writeBlkidx s _).append hload).append ((TurnsLead.expand _).append (TurnsLead.compress _))

/-- The blocks 0 to n − 1 by single commands lead where n block steps lead, up to BLKIDX. -/
theorem TurnsLead.blocks {s : State} (hlen : s.lengthError = none) {n : Nat} (hn : n ≤ blockCount s.len)
    (hword : n ≤ 2 ^ 32) :
    ∃ b, TurnsLead (blocksByHand n) s { s.hashBlocks n with blkidx := b } := by
  induction n with
  | zero => exact ⟨s.blkidx, TurnsLead.nil s⟩
  | succ n ih =>
    obtain ⟨b, hblocks⟩ := ih (by omega) (by omega)
    have hkeeps : KeepsInputs s (s.hashBlocks n) := KeepsInputs.hashBlocks s n
    have hblock := TurnsLead.block (s := { s.hashBlocks n with blkidx := b }) (hkeeps.lengthError.trans hlen)
      (Nat.lt_of_lt_of_eq hn (congrArg blockCount hkeeps.len.symm)) hword
    refine ⟨BitVec.ofNat 32 n, ?_⟩
    rw [blocksByHand, List.append_assoc, List.append_assoc]
    exact hblocks.append hblock

/-- The host sequence of R231 leads where the data path of ONE_SHOT leads, up to BLKIDX. -/
theorem TurnsLead.oneShot {s : State} (hc : s.len ≤ s.msgCap.toNat) :
    ∃ b, TurnsLead (oneShotByHand (blockCount s.len)) s { s.hashMessage with blkidx := b } := by
  have hword : blockCount s.len ≤ 2 ^ 32 := by
    have := State.len_lt_of_fits hc
    unfold blockCount
    omega
  obtain ⟨b, hblocks⟩ := TurnsLead.blocks (s := s.initHash) (State.lengthError_fits (s := s) hc) le_rfl hword
  exact ⟨b, ((TurnsLead.init s).append hblocks).append (TurnsLead.finalize _)⟩

end Sys2Proof.Machine

namespace Sys2Proof.Proofs

open Sys2Proof.Machine

/-- Settles O23: the host sequence leads where the data path of ONE_SHOT leads, and equal data are equal data registers. -/
theorem oneShotEqualsTheHostSequence : Obligations.OneShotEqualsTheHostSequence := by
  intro s hb hc
  obtain ⟨b, hlead⟩ := TurnsLead.oneShot hc
  obtain ⟨u, hrun, -, -, hdata⟩ :=
    hlead { s with agenda := oneShotByHand (blockCount s.len) } [] hb (List.append_nil _).symm rfl
  exact ⟨_, u, exec_oneShot_of_fits hc, hrun, (congrArg State.h hdata :), (congrArg State.blk hdata :),
    (congrArg State.w hdata :), (congrArg State.wv hdata :), (congrArg State.round hdata :),
    (congrArg State.dig hdata :), s.hashMessage_blkidx⟩

end Sys2Proof.Proofs

/-! What raises BUSY: of the host's primitives a write to CMD alone, and no turn of an idle engine and no reset (R93, R277). -/

namespace Sys2Proof.Machine

/-! ### The host's primitives and BUSY -/

theorem State.guarded_keeps_busy {s : State} {f : State → State} (h : (f s).busy = s.busy) :
    (s.guarded f).busy = s.busy := by
  cases hb : s.busy with
  | false => rw [State.guarded_idle hb, h, hb]
  | true => rw [State.guarded_busy hb, State.dropWrite_busy, hb]

theorem State.writeReg_keeps_busy {r : Reg} (hr : r ≠ .cmd) (s : State) (v : Word) :
    (s.writeReg v r).busy = s.busy := by
  cases r with
  | cmd => exact absurd rfl hr
  | lenLo | lenHi | blkidx | h _ | blk _ => exact State.guarded_keeps_busy rfl
  | id | ctrl | status | nblk | round | msgcap | wv _ | w _ | k _ | iv _ | dig _ => rfl

theorem State.regWrite_keeps_busy {off : Nat} (h : Reg.ofOffset off ≠ some .cmd) (s : State) (v : Word) :
    (s.regWrite off v).busy = s.busy := by
  rw [State.regWrite]
  split
  case h_1 => rfl
  case h_2 r hr => exact State.writeReg_keeps_busy (fun hcmd => h (hcmd ▸ hr)) s v

theorem State.regRead_keeps_busy (s : State) (off : Nat) : (s.regRead off).busy = s.busy := by
  rw [State.regRead]
  split
  case h_1 => rfl
  case h_2 => split <;> rfl

theorem State.msgRead8_keeps_busy (s : State) (a : Nat) : (s.msgRead8 a).busy = s.busy := by
  rw [State.msgRead8]
  split <;> rfl

theorem State.msgRead32_keeps_busy (s : State) (a : Nat) : (s.msgRead32 a).busy = s.busy := by
  rw [State.msgRead32]
  split <;> rfl

theorem State.msgWrite8_keeps_busy (s : State) (a : Nat) (v : Byte) : (s.msgWrite8 a v).busy = s.busy := by
  rw [State.msgWrite8]
  split
  case isTrue => exact State.guarded_keeps_busy (s.storeByte_busy a v)
  case isFalse => rfl

theorem State.msgWrite32_keeps_busy (s : State) (a : Nat) (v : Word) : (s.msgWrite32 a v).busy = s.busy := by
  rw [State.msgWrite32]
  split
  case isTrue => exact State.guarded_keeps_busy (s.storeWord_busy a v)
  case isFalse => rfl

/-- A host primitive that changes BUSY writes CMD. -/
theorem hostOp_busy_ne {s : State} {op : HostOp} (h : (hostOp s op).busy ≠ s.busy) :
    ∃ off v, op = .regWrite off v ∧ Reg.ofOffset off = some .cmd := by
  cases op with
  | regWrite off v => exact ⟨off, v, rfl, by_contra fun hcmd => h (State.regWrite_keeps_busy hcmd s v)⟩
  | regRead off => exact absurd (s.regRead_keeps_busy off) h
  | msgRead8 a => exact absurd (s.msgRead8_keeps_busy a) h
  | msgRead32 a => exact absurd (s.msgRead32_keeps_busy a) h
  | msgWrite8 a v => exact absurd (s.msgWrite8_keeps_busy a v) h
  | msgWrite32 a v => exact absurd (s.msgWrite32_keeps_busy a v) h

/-! ### The step that wakes the engine -/

/-- Only a write transaction to the register space is `RegWrite` (R61, R102). -/
theorem Txn.eq_of_decode_regWrite {x : Txn} {off : Nat} {v : Word} (h : x.decode = some (.regWrite off v)) :
    x = ⟨.write, .reg, off, 32, v⟩ ∧ off % 4 = 0 := by
  obtain ⟨dir, space, addr, width, data⟩ := x
  have hinv := Txn.decode_inv h
  simp only [HostOp.regWrite.injEq, reduceCtorEq, and_false, false_or, or_false] at hinv
  obtain ⟨rfl, rfl, rfl, h4, -, rfl, rfl⟩ := hinv
  exact ⟨rfl, h4⟩

/-- The turn that raises BUSY is a write to CMD. -/
theorem step_wakes {s t : State} (hb : s.busy = false) (h : step s = .next t) (ht : t.busy = true) :
    ∃ v rest, s.agenda = .host ⟨.write, .reg, 0x008, 32, v⟩ :: rest := by
  obtain ⟨rest, -, hturn⟩ | ⟨x, rest, op, ha, hd, rfl⟩ | ⟨rest, -, rfl⟩ := step_cases h
  case inl =>
    rw [engineTurn_idle (s := { s with agenda := rest }) hb] at hturn
    cases hturn
    exact absurd (hb.symm.trans ht) Bool.false_ne_true
  case inr.inl =>
    have hchanged : (hostOp { s with agenda := rest } op).busy ≠ s.busy := by
      rw [ht, hb]
      decide
    obtain ⟨off, v, rfl, hcmd⟩ := hostOp_busy_ne hchanged
    obtain ⟨rfl, h4⟩ := Txn.eq_of_decode_regWrite hd
    obtain rfl := Reg.offset_of_ofOffset h4 hcmd
    exact ⟨v, rest, ha⟩
  case inr.inr => exact absurd ht Bool.false_ne_true

end Sys2Proof.Machine

namespace Sys2Proof.Proofs

open Sys2Proof.Machine

/-- Settles O6: an idle engine's turn answers the state it is given; the turn that raises BUSY is a write to CMD, and this
write is `State.accept`. -/
theorem idleEngineWakesOnlyOnAcceptance : Obligations.IdleEngineWakesOnlyOnAcceptance := by
  intro s hb
  refine ⟨fun ha => ?silent, fun rest ha => ?turn, fun t h ht => ?wakes⟩
  case silent => rw [step_nil ha, engineTurn_idle hb]
  case turn =>
    rw [step_engine ha, engineTurn_idle]
    exact hb
  case wakes =>
    obtain ⟨v, rest, ha⟩ := step_wakes hb h ht
    rw [step_cmdWrite_idle hb ha] at h
    cases h
    exact ⟨v, rest, ha, rfl, rfl⟩

end Sys2Proof.Proofs

/-! What the reset state holds in the words that are computed from the fields, and in each element of the register arrays
(R45, R291). -/

namespace Sys2Proof.Machine

/-! ### The computed words after reset -/

@[simp] theorem State.applyReset_statusWord (s : State) : s.applyReset.statusWord = State.reset.statusWord := rfl
@[simp] theorem State.applyReset_nblk (s : State) : s.applyReset.nblk = State.reset.nblk := rfl
@[simp] theorem State.applyReset_irq (s : State) : s.applyReset.irq = State.reset.irq := rfl

theorem State.reset_statusWord : State.reset.statusWord = 0 := by decide

theorem State.reset_irq : State.reset.irq = false := rfl

/-! ### The register arrays after reset -/

theorem State.reset_wv_getElem (k : Fin 8) : State.reset.wv[k.val] = 0 := Vector.getElem_replicate k.isLt

theorem State.reset_blk_getElem (k : Fin 16) : State.reset.blk[k.val] = 0 := Vector.getElem_replicate k.isLt

theorem State.reset_w_getElem (i : Fin 64) : State.reset.w[i.val] = 0 := Vector.getElem_replicate i.isLt

theorem State.reset_dig_getElem (k : Fin 8) : State.reset.dig[k.val] = 0 := Vector.getElem_replicate k.isLt

end Sys2Proof.Machine

namespace Sys2Proof.Proofs

open Sys2Proof.Machine

/-- Settles O51: a reset turn is `State.applyReset`, whatever BUSY is. Each register has the value `State.reset` gives it; MSG,
MSGCAP and the model's own fields are the state's. -/
theorem resetSetsEveryRegister : Obligations.ResetSetsEveryRegister := by
  intro s rest ha
  obtain ⟨-, -, hnblk⟩ := nblkReadsTheBlockCount
  refine ⟨({ s with agenda := rest } : State).applyReset, step_reset ha, rfl, rfl, ?status, rfl, rfl, rfl, rfl, rfl, rfl, rfl,
    rfl, rfl, ?nblk, rfl, rfl, State.reset_wv_getElem, State.reset_blk_getElem, State.reset_w_getElem,
    State.reset_dig_getElem, rfl, ?irq, rfl, rfl, fun _ => rfl, rfl, rfl, rfl, rfl⟩
  case status => rw [State.applyReset_statusWord, State.reset_statusWord]
  case nblk => rw [State.applyReset_nblk, hnblk]
  case irq => rw [State.applyReset_irq, State.reset_irq]

end Sys2Proof.Proofs

/-! Decoding and encoding, both ways (R90 to R92, R104), and the register map against the offsets of the names (R40). -/

namespace Sys2Proof

/-- The opcode map on a legal word's number is the command that `encode` takes back to it (R91). -/
theorem opcodeMap_wellFormed_encode {n : Nat} (h : n < 8) :
    ∃ i, opcodeMap n = some i ∧ i.wellFormed = true ∧ encode i = BitVec.ofNat 32 n := by
  interval_cases n <;> exact ⟨_, rfl, rfl, rfl⟩

/-- Every word decodes to a well-formed command that it encodes: a legal one by the opcode map, an illegal one to itself. -/
theorem decode_wellFormed_encode (v : Word) : (decode v).wellFormed = true ∧ encode (decode v) = v := by
  rcases Nat.lt_or_ge v.toNat 8 with h | h
  · obtain ⟨i, hmap, hwf, henc⟩ := opcodeMap_wellFormed_encode h
    rw [decode_legal h hmap]
    exact ⟨hwf, henc.trans (BitVec.ofNat_toNat 32 v)⟩
  · rw [decode_illegal h]
    exact ⟨decide_eq_true h, rfl⟩

end Sys2Proof

namespace Sys2Proof.Proofs

open Sys2Proof.Machine

/-- Settles O3: a well-formed command by its row, a word by whether it is legal. -/
theorem decodeAndEncodeAgree : Obligations.DecodeAndEncodeAgree :=
  ⟨fun _ => decode_encode, decode_wellFormed_encode⟩

/-- Settles O1: the legal words by the opcode map, the others because they are from 8 up. -/
theorem opcodeWordsDecodeToTheirCommands : Obligations.OpcodeWordsDecodeToTheirCommands := by
  refine ⟨?_, ?_, ?_, ?_, ?_, ?_, ?_, ?_, ?_, ?_, ?_, ?_, ?_⟩
  iterate 8 exact decode_legal (by decide) rfl
  all_goals exact decode_illegal (by decide)

/-- Settles O4: the map finds each register at its offset, and nothing but that register there. -/
theorem registerOffsetsAgree : Obligations.RegisterOffsetsAgree :=
  ⟨fun r => ⟨r.ofOffset_offset, r.offset_aligned, r.offset_le⟩, fun _ _ => Reg.offset_of_ofOffset⟩

end Sys2Proof.Proofs

/-! What a command can do, said once (R95, R97 to R99): its error, if its checks find one, or its data path and the successful
completion. -/

namespace Sys2Proof.Machine

/-! ### The error and the data path of a command -/

/-- The error that a command ends in, if any: the checks of R263, or ILLEGAL_COMMAND (R234). -/
def State.commandError (s : State) : Instr → Option CommandError
  | .load => s.blockError
  | .block => s.blockError
  | .oneShot => s.lengthError
  | .illegal _ => some .illegalCommand
  | .nop => none
  | .init => none
  | .expand => none
  | .compress => none
  | .finalize => none

/-- What a command writes before it completes with success (the write column of R99). -/
def State.dataPath (s : State) : Instr → State
  | .nop => s
  | .init => s.initHash
  | .load => s.loadBlock s.blkidx.toNat
  | .expand => s.expandW
  | .compress => s.compressW
  | .finalize => s.serializeH
  | .oneShot => s.hashMessage
  | .block => { s.hashBlock s.blkidx.toNat with blkidx := s.blkidx + 1 }
  | .illegal _ => s

theorem exec_of_error {i : Instr} {s : State} {c : CommandError} (h : s.commandError i = some c) :
    exec i s = .next (s.raiseError c) := by
  cases i with
  | load => exact execLoad_error h
  | block => exact execBlock_error h
  | oneShot => exact execOneShot_error h
  | illegal v =>
    cases h
    exact exec_illegal v s
  | nop | init | expand | compress | finalize => cases h

theorem exec_of_ok {i : Instr} {s : State} (h : s.commandError i = none) :
    exec i s = .next (s.dataPath i).succeed := by
  cases i with
  | load => exact execLoad_ok h
  | block => exact execBlock_ok h
  | oneShot => exact execOneShot_ok h
  | illegal v => cases h
  | nop => exact exec_nop s
  | init => exact exec_init s
  | expand => exact exec_expand s
  | compress => exact exec_compress s
  | finalize => exact exec_finalize s

/-- A command fails with its error and writes nothing, or has none and writes what its data path writes. -/
theorem exec_cases {i : Instr} {s t : State} (h : exec i s = .next t) :
    (∃ c, s.commandError i = some c ∧ t = s.raiseError c) ∨
      (s.commandError i = none ∧ t = (s.dataPath i).succeed) := by
  cases herr : s.commandError i with
  | some c =>
    rw [exec_of_error herr] at h
    cases h
    exact .inl ⟨c, rfl, rfl⟩
  | none =>
    rw [exec_of_ok herr] at h
    cases h
    exact .inr ⟨rfl, rfl⟩

/-! ### What the data paths leave alone -/

theorem KeepsInputs.dataPath (s : State) (i : Instr) : KeepsInputs s (s.dataPath i) := by
  cases i with
  | nop | illegal _ => exact KeepsInputs.refl s
  | init => exact KeepsInputs.initHash s
  | load => exact KeepsInputs.loadBlock _ s
  | expand => exact KeepsInputs.expandW s
  | compress => exact KeepsInputs.compressW s
  | finalize => exact KeepsInputs.serializeH s
  | oneShot => exact KeepsInputs.hashMessage s
  | block =>
    -- BLKIDX is no input
    obtain ⟨ctrl, cmd, werr, aerr, lenLo, lenHi, cap, bytes, written, own⟩ := KeepsInputs.hashBlock s.blkidx.toNat s
    exact ⟨ctrl, cmd, werr, aerr, lenLo, lenHi, cap, bytes, written, own⟩

/-- The status of a completion is not the data path's, and it writes no message byte. -/
theorem State.dataPath_frame (s : State) (i : Instr) :
    (s.dataPath i).err = s.err ∧ (s.dataPath i).errcode = s.errcode ∧ (s.dataPath i).msg = s.msg := by
  cases i with
  | nop | init | load | expand | compress | finalize | block | illegal _ => exact ⟨rfl, rfl, rfl⟩
  | oneShot =>
    obtain ⟨-, -, -, herr, hcode, -, -, hmsg⟩ := s.initHash.hashBlocks_frame (blockCount s.len)
    exact ⟨herr, hcode, hmsg⟩

/-- ROUND stays as it is or becomes 64 (R194). -/
theorem State.dataPath_round (s : State) (i : Instr) : (s.dataPath i).round = s.round ∨ (s.dataPath i).round = 64 := by
  cases i with
  | nop | init | load | expand | finalize | illegal _ => exact .inl rfl
  | compress | oneShot | block => exact .inr rfl

theorem State.dataPath_succeeds (s : State) (i : Instr) : Succeeds s (s.dataPath i).succeed := by
  obtain ⟨herr, hcode, -⟩ := s.dataPath_frame i
  exact ⟨rfl, rfl, rfl, herr, hcode⟩

/-- Every command completes, with success or with an error, and keeps the inputs (R97, R98). -/
theorem exec_completes (i : Instr) (s : State) :
    ∃ t, exec i s = .next t ∧ KeepsInputs s t ∧ (Succeeds s t ∨ ∃ c, FailsWith c s t) := by
  cases herr : s.commandError i with
  | some c => exact ⟨_, exec_of_error herr, KeepsInputs.raiseError c s, .inr ⟨c, s.raiseError_fails c⟩⟩
  | none =>
    exact ⟨_, exec_of_ok herr, (KeepsInputs.dataPath s i).trans (KeepsInputs.succeed _), .inl (s.dataPath_succeeds i)⟩

theorem exec_keepsInputs {i : Instr} {s t : State} (h : exec i s = .next t) : KeepsInputs s t := by
  obtain ⟨u, hu, hkeeps, -⟩ := exec_completes i s
  rw [hu] at h
  cases h
  exact hkeeps

theorem exec_completion {i : Instr} {s t : State} (h : exec i s = .next t) : Succeeds s t ∨ ∃ c, FailsWith c s t := by
  obtain ⟨u, hu, -, hend⟩ := exec_completes i s
  rw [hu] at h
  cases h
  exact hend

end Sys2Proof.Machine

namespace Sys2Proof.Proofs

open Sys2Proof.Machine

/-- Settles O7: the error and the data path of a command are its two ends, and neither writes an input. -/
theorem everyCommandCompletes : Obligations.EveryCommandCompletes := exec_completes

/-- Settles O8: a failed command writes none of these registers, and each data path by its row. -/
theorem commandsWriteOnlyTheirRegisters : Obligations.CommandsWriteOnlyTheirRegisters := by
  intro i s t h
  obtain ⟨c, -, rfl⟩ | ⟨-, rfl⟩ := exec_cases h
  case inl => simp
  case inr => cases i <;> simp [State.dataPath]

end Sys2Proof.Proofs

/-! What a turn of the host can do, said once by its transaction (R61 to R68), and what a step can do; the invariant, which each
of these keeps. -/

namespace Sys2Proof.Machine

/-! ### The effect of a host transaction -/

/-- The bytes that a MSG transaction covers. -/
def Txn.Covers (x : Txn) (a : Nat) : Prop := x.addr ≤ a ∧ a < x.addr + x.width / 8

theorem Txn.covers_byte {x : Txn} (hw : x.width = 8) {a : Nat} : x.Covers a ↔ a = x.addr := by
  rw [Txn.Covers, hw]
  omega

theorem Txn.covers_word {x : Txn} (hw : x.width = 32) {a : Nat} : x.Covers a ↔ x.addr ≤ a ∧ a < x.addr + 4 := by
  rw [Txn.Covers, hw]

theorem MsgInRange.byte_iff {x : Txn} (hw : x.width = 8) {s : State} : MsgInRange s x ↔ x.addr < s.msgCap.toNat := by
  simp [MsgInRange, hw]

theorem MsgInRange.word_iff {x : Txn} (hw : x.width = 32) {s : State} :
    MsgInRange s x ↔ x.addr % 4 = 0 ∧ x.addr + 4 ≤ s.msgCap.toNat := by
  simp [MsgInRange, hw]

/-- What a host transaction can make of the state `s`. -/
inductive HostEffect (s : State) (x : Txn) : State → Prop
  /-- A read that is answered without a complaint, drawing a free word or not. -/
  | answered (hdir : x.dir = .read) (hok : x.space = .reg ∨ MsgInRange s x) (n : Nat) (y : Answer) :
    HostEffect s x { s with draws := n, answers := y :: s.answers }
  /-- A bad MSG read (R66). -/
  | badRead (hdir : x.dir = .read) (hspace : x.space = .msg) (hbad : ¬MsgInRange s x) (y : Answer) :
    HostEffect s x (s.badAccess.answer y)
  /-- A bad MSG write (R66). -/
  | badWrite (hdir : x.dir = .write) (hspace : x.space = .msg) (hbad : ¬MsgInRange s x) : HostEffect s x s.badAccess
  /-- A write to a read-only register or a reserved offset (R39, R68). -/
  | ignored (hdir : x.dir = .write) : HostEffect s x s
  /-- A write to CTRL (R31). -/
  | ctrl (hdir : x.dir = .write) (b : Bool) : HostEffect s x { s with ctrlIE := b }
  /-- A write to STATUS (R33). -/
  | status (v : Word) (hx : x = ⟨.write, .reg, 0x00C, 32, v⟩) : HostEffect s x (s.clearStatus v)
  /-- A write dropped because BUSY = 1 (R68). -/
  | dropped (hbusy : s.busy = true) (hdir : x.dir = .write)
    (hguard : (x.space = .reg ∧ GuardedOffset x.addr) ∨ (x.space = .msg ∧ MsgInRange s x)) : HostEffect s x s.dropWrite
  /-- A command acceptance (R93). -/
  | accepted (hbusy : s.busy = false) (hdir : x.dir = .write) (v : Word) : HostEffect s x (s.accept v)
  /-- A write to LEN, BLKIDX, H or BLK (R68). -/
  | operand (hbusy : s.busy = false) (hdir : x.dir = .write) (lo hi idx : Word) (h : Vector Word 8)
    (blk : Vector Word 16) :
    HostEffect s x { s with lenLo := lo, lenHi := hi, blkidx := idx, h := h, blk := blk }
  /-- A MSG write in range (R63, R64). -/
  | stored (hbusy : s.busy = false) (hdir : x.dir = .write) (hspace : x.space = .msg) (hok : MsgInRange s x) (m : Memory)
    (hwf : Memory.wf s.msg → Memory.wf m) (hcells : ∀ c ∈ m, x.Covers c.1 ∨ c ∈ s.msg)
    (hread : ∀ a, ¬x.Covers a → Memory.read m a = Memory.read s.msg a) : HostEffect s x { s with msg := m }

/-- A guarded write is dropped or performed. -/
theorem HostEffect.guarded {s : State} {x : Txn} {f : State → State} (hdir : x.dir = .write)
    (hguard : (x.space = .reg ∧ GuardedOffset x.addr) ∨ (x.space = .msg ∧ MsgInRange s x))
    (hidle : s.busy = false → HostEffect s x (f s)) : HostEffect s x (s.guarded f) := by
  cases hb : s.busy with
  | false =>
    rw [State.guarded_idle hb]
    exact hidle hb
  | true =>
    rw [State.guarded_busy hb]
    exact .dropped hb hdir hguard

theorem HostEffect.regRead {x : Txn} (hspace : x.space = .reg) (hdir : x.dir = .read) (s : State) :
    HostEffect s x (s.regRead x.addr) := by
  rw [State.regRead]
  split
  case h_1 => exact .answered hdir (.inl hspace) s.draws _
  case h_2 =>
    split
    · exact .answered hdir (.inl hspace) (s.draws + 1) _
    · exact .answered hdir (.inl hspace) s.draws _

/-- A write to the register `r`, whatever `r` is. -/
theorem HostEffect.writeReg (s : State) (r : Reg) (v : Word) :
    HostEffect s ⟨.write, .reg, r.offset, 32, v⟩ (s.writeReg v r) := by
  cases r with
  | ctrl => exact .ctrl rfl _
  | status => exact .status v rfl
  | id | nblk | round | msgcap | wv _ | w _ | k _ | iv _ | dig _ => exact .ignored rfl
  | cmd => exact .guarded (f := State.accept v) rfl (.inl ⟨rfl, .inl rfl⟩) fun hb => .accepted hb rfl v
  | lenLo =>
    exact .guarded (f := fun s => { s with lenLo := v }) rfl (.inl ⟨rfl, .inr (.inl rfl)⟩) fun hb =>
      .operand hb rfl v s.lenHi s.blkidx s.h s.blk
  | lenHi =>
    exact .guarded (f := fun s => { s with lenHi := v }) rfl (.inl ⟨rfl, .inr (.inr (.inl rfl))⟩) fun hb =>
      .operand hb rfl s.lenLo v s.blkidx s.h s.blk
  | blkidx =>
    exact .guarded (f := fun s => { s with blkidx := v }) rfl (.inl ⟨rfl, .inr (.inr (.inr (.inl rfl)))⟩) fun hb =>
      .operand hb rfl s.lenLo s.lenHi v s.h s.blk
  | h k =>
    refine .guarded (f := fun s => { s with h := s.h.set k v }) rfl (.inl ⟨rfl, ?_⟩) fun hb =>
      .operand hb rfl s.lenLo s.lenHi s.blkidx (s.h.set k v) s.blk
    simp only [GuardedOffset, Reg.offset]
    omega
  | blk k =>
    refine .guarded (f := fun s => { s with blk := s.blk.set k v }) rfl (.inl ⟨rfl, ?_⟩) fun hb =>
      .operand hb rfl s.lenLo s.lenHi s.blkidx s.h (s.blk.set k v)
    simp only [GuardedOffset, Reg.offset]
    omega

theorem HostEffect.regWrite {off : Nat} (h4 : off % 4 = 0) (s : State) (v : Word) :
    HostEffect s ⟨.write, .reg, off, 32, v⟩ (s.regWrite off v) := by
  cases hr : Reg.ofOffset off with
  | none =>
    simp only [State.regWrite, hr]
    exact .ignored rfl
  | some r =>
    obtain rfl := Reg.offset_of_ofOffset h4 hr
    rw [State.regWrite_offset]
    exact .writeReg s r v

theorem HostEffect.msgRead8 {x : Txn} (hspace : x.space = .msg) (hdir : x.dir = .read) (hw : x.width = 8) (s : State) :
    HostEffect s x (s.msgRead8 x.addr) := by
  rcases Nat.lt_or_ge x.addr s.msgCap.toNat with hr | hr
  · rw [State.msgRead8_inRange hr]
    exact .answered hdir (.inr ((MsgInRange.byte_iff hw).mpr hr)) s.draws _
  · rw [State.msgRead8_outOfRange hr]
    exact .badRead hdir hspace ((MsgInRange.byte_iff hw).not.mpr hr.not_gt) _

theorem HostEffect.msgRead32 {x : Txn} (hspace : x.space = .msg) (hdir : x.dir = .read) (hw : x.width = 32) (s : State) :
    HostEffect s x (s.msgRead32 x.addr) := by
  by_cases hr : x.addr % 4 = 0 ∧ x.addr + 4 ≤ s.msgCap.toNat
  · rw [State.msgRead32_inRange hr]
    exact .answered hdir (.inr ((MsgInRange.word_iff hw).mpr hr)) s.draws _
  · rw [State.msgRead32_bad (by omega)]
    exact .badRead hdir hspace ((MsgInRange.word_iff hw).not.mpr hr) _

theorem HostEffect.msgWrite8 {x : Txn} (hspace : x.space = .msg) (hdir : x.dir = .write) (hw : x.width = 8) (s : State)
    (v : Byte) : HostEffect s x (s.msgWrite8 x.addr v) := by
  rcases Nat.lt_or_ge x.addr s.msgCap.toNat with hr | hr
  · have hok : MsgInRange s x := (MsgInRange.byte_iff hw).mpr hr
    rw [State.msgWrite8_inRange hr]
    refine .guarded hdir (.inr ⟨hspace, hok⟩) fun hb =>
      .stored hb hdir hspace hok _ (Memory.wf_write _ v) (fun c hc => ?cells) fun a ha => ?reads
    case cells =>
      exact (Memory.mem_write hc).imp_left fun hnew => (Txn.covers_byte hw).mpr (congrArg Prod.fst hnew)
    case reads => exact Memory.read_write_other _ _ ((Txn.covers_byte hw).not.mp ha)
  · rw [State.msgWrite8_outOfRange hr]
    exact .badWrite hdir hspace ((MsgInRange.byte_iff hw).not.mpr hr.not_gt)

theorem HostEffect.msgWrite32 {x : Txn} (hspace : x.space = .msg) (hdir : x.dir = .write) (hw : x.width = 32) (s : State)
    (v : Word) : HostEffect s x (s.msgWrite32 x.addr v) := by
  by_cases hr : x.addr % 4 = 0 ∧ x.addr + 4 ≤ s.msgCap.toNat
  · have hok : MsgInRange s x := (MsgInRange.word_iff hw).mpr hr
    rw [State.msgWrite32_inRange hr]
    refine .guarded hdir (.inr ⟨hspace, hok⟩) fun hb =>
      .stored hb hdir hspace hok _ (Memory.wf_writeWord _ v) (fun c hc => ?cells) fun a ha => ?reads
    case cells => exact (Memory.mem_writeWord hc).imp_left (Txn.covers_word hw).mpr
    case reads =>
      rw [Txn.covers_word hw] at ha
      rw [Memory.read_writeWord, if_neg (by omega), if_neg (by omega), if_neg (by omega), if_neg (by omega)]
  · rw [State.msgWrite32_bad (by omega)]
    exact .badWrite hdir hspace ((MsgInRange.word_iff hw).not.mpr hr)

/-- Every host primitive has one of the effects. -/
theorem hostOp_effect {x : Txn} {op : HostOp} (h : x.decode = some op) (s : State) : HostEffect s x (hostOp s op) := by
  obtain ⟨hspace, hdir, -, -, -, rfl⟩ | ⟨hspace, hdir, hw, h4, -, rfl⟩ | ⟨hspace, hdir, hw, rfl⟩ |
    ⟨hspace, hdir, hw, rfl⟩ | ⟨hspace, hdir, hw, -, rfl⟩ | ⟨hspace, hdir, hw, rfl⟩ := Txn.decode_inv h
  · exact .regRead hspace hdir s
  · have hx : x = ⟨.write, .reg, x.addr, 32, x.data⟩ := by rw [← hspace, ← hdir, ← hw]
    rw [hx]
    exact .regWrite h4 s x.data
  · exact .msgRead8 hspace hdir hw s
  · exact .msgRead32 hspace hdir hw s
  · exact .msgWrite8 hspace hdir hw s _
  · exact .msgWrite32 hspace hdir hw s x.data

/-! ### The effect of a step -/

/-- What a step can make of a state: it takes off the first turn, if any, and then the engine is idle, or performs the pending
command, or the host's transaction has its effect, or the state is reset. -/
inductive StepEffect (s : State) : State → Prop
  | idle (rest : List Turn) (hbusy : s.busy = false) : StepEffect s { s with agenda := rest }
  | command (rest : List Turn) (v : Word) (hbusy : s.busy = true) (hpending : s.pending = some v) (t : State)
    (hexec : exec (decode v) { s with agenda := rest } = .next t) : StepEffect s t
  | host (x : Txn) (rest : List Turn) (hagenda : s.agenda = .host x :: rest) (t : State)
    (heffect : HostEffect { s with agenda := rest } x t) : StepEffect s t
  | reset (rest : List Turn) (hagenda : s.agenda = .reset :: rest) :
    StepEffect s ({ s with agenda := rest } : State).applyReset

theorem step_effect {s t : State} (h : step s = .next t) : StepEffect s t := by
  obtain ⟨rest, -, hturn⟩ | ⟨x, rest, op, ha, hd, rfl⟩ | ⟨rest, ha, rfl⟩ := step_cases h
  · obtain ⟨hb, rfl⟩ | ⟨v, hb, hp, hexec⟩ := engineTurn_cases hturn
    · exact StepEffect.idle (s := s) rest hb
    · exact StepEffect.command (s := s) rest v hb hp t hexec
  · exact .host x rest ha _ (hostOp_effect hd _)
  · exact .reset rest ha

end Sys2Proof.Machine

namespace Sys2Proof.Machine

/-! ### The invariant -/

theorem State.Inv.withAgenda {s : State} (h : s.Inv) (rest : List Turn) : ({ s with agenda := rest } : State).Inv :=
  { h with }

theorem State.Inv.raiseError {s : State} (h : s.Inv) (hb : s.busy = true) (c : CommandError) : (s.raiseError c).Inv :=
  { h with
    pending_iff_busy := rfl
    cmd_is_pending := nofun
    busy_not_complete := nofun
    done_err_exclusive := fun hdone => absurd ((h.busy_not_complete hb).1.symm.trans hdone) Bool.false_ne_true
    errcode_iff_err := rfl }

theorem State.Inv.dataPath_succeed {s : State} (h : s.Inv) (hb : s.busy = true) (i : Instr) :
    (s.dataPath i).succeed.Inv := by
  obtain ⟨-, hnoerr⟩ := h.busy_not_complete hb
  obtain ⟨herr, hcode, hmsg⟩ := s.dataPath_frame i
  have hcap : (s.dataPath i).msgCap = s.msgCap := (KeepsInputs.dataPath s i).msgcap
  exact {
    cap_legal := by
      rw [State.succeed_msgCap, hcap]
      exact h.cap_legal
    msg_wf := by
      rw [State.succeed_msg, hmsg]
      exact h.msg_wf
    msg_in_range := by
      rw [State.succeed_msg, State.succeed_msgCap, hmsg, hcap]
      exact h.msg_in_range
    pending_iff_busy := rfl
    cmd_is_pending := nofun
    busy_not_complete := nofun
    done_err_exclusive := fun _ => herr.trans hnoerr
    errcode_iff_err := by
      rw [State.succeed_errcode, State.succeed_err, hcode, herr]
      exact h.errcode_iff_err
    round_0_or_64 := (s.dataPath_round i).elim (fun hkept => hkept ▸ h.round_0_or_64) .inr }

/-- A command performed while BUSY = 1 keeps the invariant, however it ends. -/
theorem State.Inv.exec {s t : State} {i : Instr} (h : s.Inv) (hb : s.busy = true) (hexec : exec i s = .next t) :
    t.Inv := by
  obtain ⟨c, -, rfl⟩ | ⟨-, rfl⟩ := exec_cases hexec
  · exact h.raiseError hb c
  · exact h.dataPath_succeed hb i

/-- Clearing status bits keeps DONE and ERR exclusive, and clears ERRCODE with ERR (R33). -/
theorem State.Inv.clearStatus {s : State} (h : s.Inv) (v : Word) : (s.clearStatus v).Inv :=
  { h with
    busy_not_complete := fun hb => by
      obtain ⟨hdone, herr⟩ := h.busy_not_complete hb
      rw [State.clearStatus_done, State.clearStatus_err, hdone, herr]
      exact ⟨rfl, rfl⟩
    done_err_exclusive := fun hdone => by
      have herr : s.err = false := h.done_err_exclusive (Bool.and_elim_left hdone)
      rw [State.clearStatus_err, herr, Bool.false_and]
    errcode_iff_err := by
      have hcode := h.errcode_iff_err
      rw [State.clearStatus_errcode, State.clearStatus_err]
      cases v.getLsbD 2 <;> simp [hcode] }

theorem State.Inv.accept {s : State} (h : s.Inv) (v : Word) : (s.accept v).Inv :=
  { h with
    pending_iff_busy := rfl
    cmd_is_pending := fun _ hp => Option.some.inj hp
    busy_not_complete := fun _ => ⟨rfl, rfl⟩
    done_err_exclusive := nofun
    errcode_iff_err := rfl }

theorem Txn.Covers.lt_msgCap {s : State} {x : Txn} {a : Nat} (hx : x.Covers a) (hok : MsgInRange s x) :
    a < s.msgCap.toNat := by
  rcases hok with ⟨hw, hr⟩ | ⟨hw, -, hr⟩
  · rw [Txn.covers_byte hw] at hx
    omega
  · rw [Txn.covers_word hw] at hx
    omega

theorem State.Inv.host {s t : State} {x : Txn} (h : s.Inv) (he : HostEffect s x t) : t.Inv := by
  cases he with
  | answered | badRead | badWrite | ignored | ctrl | dropped | operand => exact { h with }
  | status v => exact h.clearStatus v
  | accepted _ _ v => exact h.accept v
  | stored _ _ _ hok m hwf hcells =>
    exact { h with
      msg_wf := hwf h.msg_wf
      msg_in_range := fun c hc => (hcells c hc).elim (·.lt_msgCap hok) (h.msg_in_range c) }

theorem State.reset_inv : State.reset.Inv :=
  ⟨by decide, Memory.wf_nil, nofun, rfl, nofun, nofun, nofun, rfl, .inl rfl⟩

/-- Reset sets the status as after power-on, and keeps MSG and MSG_CAP (R290, R293). -/
theorem State.Inv.applyReset {s : State} (h : s.Inv) : s.applyReset.Inv :=
  { State.reset_inv with
    cap_legal := h.cap_legal
    msg_wf := h.msg_wf
    msg_in_range := h.msg_in_range }

theorem State.Inv.step {s t : State} (h : s.Inv) (hstep : step s = .next t) : t.Inv := by
  cases step_effect hstep with
  | idle rest => exact h.withAgenda rest
  | command rest v hb _ _ hexec => exact (h.withAgenda rest).exec hb hexec
  | host x rest _ _ he => exact (h.withAgenda rest).host he
  | reset rest => exact (h.withAgenda rest).applyReset

end Sys2Proof.Machine

namespace Sys2Proof.Proofs

open Sys2Proof.Machine

/-- Settles O54: the invariant holds of what each turn of the agenda can make of the state. -/
theorem everyStepKeepsTheInvariant : Obligations.EveryStepKeepsTheInvariant := fun _ _ => State.Inv.step

/-- Settles O53: in the reset state nothing is pending, nothing has completed and MSG holds no written byte. -/
theorem resetMeetsTheInvariant : Obligations.ResetMeetsTheInvariant := State.reset_inv

end Sys2Proof.Proofs

/-! What follows from the effects of the turns: no fault from the invariant (R271), reads without side effects (R73), what stays
fixed while BUSY = 1 (R79), what changes MSG (R43), the read-only results (R24) and the sticky flags (R264, R265). -/

namespace Sys2Proof.Machine

/-! ### Progress -/

/-- No command faults or is refused, so neither does the engine's turn while PENDING is valid (R42, R95). -/
theorem engineTurn_next {s : State} (h : s.pending.isSome = s.busy) : ∃ t, engineTurn s = .next t := by
  cases hb : s.busy with
  | false => exact ⟨s, engineTurn_idle hb⟩
  | true =>
    obtain ⟨v, hp⟩ := Option.isSome_iff_exists.mp (h.trans hb)
    obtain ⟨t, hexec, -⟩ := exec_completes (decode v) s
    exact ⟨t, (engineTurn_busy hb hp).trans hexec⟩

/-- From a state that meets the invariant a step answers a next state, unless it is the host's and inexpressible. -/
theorem State.Inv.step_next_or_refused {s : State} (h : s.Inv) :
    (∃ t, Machine.step s = .next t) ∨
      (Machine.step s = .refused .inexpressibleAccess ∧ ∃ x rest, s.agenda = .host x :: rest ∧ x.decode = none) := by
  match ha : s.agenda with
  | [] =>
    rw [step_nil ha]
    exact .inl (engineTurn_next h.pending_iff_busy)
  | .engine :: rest =>
    rw [step_engine ha]
    exact .inl (engineTurn_next (s := { s with agenda := rest }) h.pending_iff_busy)
  | .reset :: rest => exact .inl ⟨_, step_reset ha⟩
  | .host x :: rest =>
    rw [step_host ha]
    cases hd : x.decode with
    | some op => exact .inl ⟨_, hostTurn_of_decode hd _⟩
    | none =>
      refine .inr ⟨?_, x, rest, rfl, hd⟩
      rw [hostTurn, hd]

/-- With expressible accesses to come, the machine does not stop. -/
theorem State.Inv.step_next {s : State} (h : s.Inv) (hx : ∀ x, Turn.host x ∈ s.agenda → x.decode ≠ none) :
    ∃ t, Machine.step s = .next t := by
  refine h.step_next_or_refused.resolve_right ?_
  rintro ⟨-, x, rest, ha, hd⟩
  exact hx x (ha ▸ List.mem_cons_self) hd

/-! ### The coming turns -/

/-- A step takes the first turn off. -/
theorem step_agenda {s t : State} (h : step s = .next t) : t.agenda = s.agenda.tail := by
  obtain ⟨rest, hrest, hturn⟩ | ⟨x, rest, op, ha, -, rfl⟩ | ⟨rest, ha, rfl⟩ := step_cases h
  · have htail : s.agenda.tail = rest := by rcases hrest with ⟨ha, rfl⟩ | ha <;> rw [ha] <;> rfl
    rw [htail]
    obtain ⟨-, rfl⟩ | ⟨v, -, -, hexec⟩ := engineTurn_cases hturn
    · rfl
    · obtain ⟨-, -, hagenda, -⟩ := (exec_keepsInputs hexec).own_fields
      exact hagenda
  · rw [ha, hostOp_agenda]
    rfl
  · rw [ha]
    rfl

/-! ### A turn of the host -/

theorem step_host_effect {s t : State} {x : Txn} {rest : List Turn} (ha : s.agenda = .host x :: rest)
    (h : step s = .next t) : HostEffect { s with agenda := rest } x t := by
  rw [step_host ha, hostTurn] at h
  cases hd : x.decode with
  | none => simp [hd] at h
  | some op =>
    rw [hd] at h
    cases h
    exact hostOp_effect hd _

/-- The host writes none of the read-only results (R24, R26, R29, R38). -/
theorem HostEffect.keeps_results {s t : State} {x : Txn} (he : HostEffect s x t) :
    t.wv = s.wv ∧ t.w = s.w ∧ t.dig = s.dig ∧ t.round = s.round := by
  cases he <;> exact ⟨rfl, rfl, rfl, rfl⟩

/-- A host transaction changes a byte of MSG only while BUSY = 0, in range, by a MSG write that covers it. -/
theorem HostEffect.msgByte_ne {s t : State} {x : Txn} {a : Nat} (he : HostEffect s x t) (h : t.msgByte a ≠ s.msgByte a) :
    s.busy = false ∧ x.space = .msg ∧ x.dir = .write ∧ MsgInRange s x ∧ x.Covers a := by
  cases he with
  | answered | badRead | badWrite | ignored | ctrl | status | dropped | accepted | operand => exact absurd rfl h
  | stored hb hdir hspace hok m _ _ hread =>
    refine ⟨hb, hspace, hdir, hok, by_contra fun hx => h ?_⟩
    rw [State.msgByte, State.msgByte, hread a hx]

/-! ### Sticky flags -/

/-- A flag `old` becomes `new`: it falls only if `falls` holds, and rises only if `rises` holds. -/
structure StickyFlag (old new : Bool) (falls rises : Prop) : Prop where
  fall : old = true → new = false → falls
  rise : old = false → new = true → rises

namespace StickyFlag

variable {old new : Bool} {falls rises : Prop}

theorem kept (h : new = old) : StickyFlag old new falls rises :=
  ⟨fun ho hn => absurd (ho.symm.trans (h.symm.trans hn)) Bool.true_eq_false.mp,
    fun ho hn => absurd (ho.symm.trans (h.symm.trans hn)) Bool.false_ne_true⟩

theorem lowered (h : falls) : StickyFlag old false falls rises := ⟨fun _ _ => h, nofun⟩

theorem raised (h : rises) : StickyFlag old true falls rises := ⟨nofun, fun _ _ => h⟩

/-- A flag that is written 1 to clear with the bit `b` (R33). -/
theorem w1c {b : Bool} (h : b = true → falls) : StickyFlag old (old && !b) falls rises := by
  cases b with
  | false => exact kept (Bool.and_true old)
  | true => exact Bool.and_false old ▸ lowered (h rfl)

end StickyFlag

/-- WERR falls by W1C or reset, and rises by a dropped write (R264). -/
theorem step_werr {s t : State} (h : step s = .next t) :
    StickyFlag s.werr t.werr
      ((∃ v rest, s.agenda = .host ⟨.write, .reg, 0x00C, 32, v⟩ :: rest ∧ v.getLsbD 8 = true) ∨
        ∃ rest, s.agenda = .reset :: rest)
      (s.busy = true ∧ ∃ x rest, s.agenda = .host x :: rest ∧ x.dir = .write ∧
        ((x.space = .reg ∧ GuardedOffset x.addr) ∨ (x.space = .msg ∧ MsgInRange s x))) := by
  cases step_effect h with
  | idle => exact .kept rfl
  | command rest v _ _ _ hexec => exact .kept (exec_keepsInputs hexec).werr
  | reset rest ha => exact .lowered (.inr ⟨rest, ha⟩)
  | host x rest ha _ he =>
    cases he with
    | answered | badRead | badWrite | ignored | ctrl | accepted | operand | stored => exact .kept rfl
    | status v hx => exact .w1c fun hv => .inl ⟨v, rest, hx ▸ ha, hv⟩
    | dropped hb hdir hguard => exact .raised ⟨hb, x, rest, ha, hdir, hguard⟩

/-- AERR falls by W1C or reset, and rises by a bad MSG access (R265). -/
theorem step_aerr {s t : State} (h : step s = .next t) :
    StickyFlag s.aerr t.aerr
      ((∃ v rest, s.agenda = .host ⟨.write, .reg, 0x00C, 32, v⟩ :: rest ∧ v.getLsbD 9 = true) ∨
        ∃ rest, s.agenda = .reset :: rest)
      (∃ x rest, s.agenda = .host x :: rest ∧ x.space = .msg ∧ ¬MsgInRange s x) := by
  cases step_effect h with
  | idle => exact .kept rfl
  | command rest v _ _ _ hexec => exact .kept (exec_keepsInputs hexec).aerr
  | reset rest ha => exact .lowered (.inr ⟨rest, ha⟩)
  | host x rest ha _ he =>
    cases he with
    | answered | ignored | ctrl | dropped | accepted | operand | stored => exact .kept rfl
    | status v hx => exact .w1c fun hv => .inl ⟨v, rest, hx ▸ ha, hv⟩
    | badRead _ hspace hbad | badWrite _ hspace hbad => exact .raised ⟨x, rest, ha, hspace, hbad⟩

/-! ### Refused transactions -/

theorem step_refused {s : State} {x : Txn} {rest : List Turn} (ha : s.agenda = .host x :: rest) (hd : x.decode = none) :
    step s = .refused .inexpressibleAccess := by
  rw [step_host ha, hostTurn, hd]

/-- Every line of a host program is a transaction of the interface (R102). -/
theorem HostLine.txn_decode (l : HostLine) : ∃ op, l.txn.decode = some op := by
  cases l with
  | wr r v => exact ⟨_, Txn.decode_regWrite v r.offset_aligned r.offset_le⟩
  | rd r => exact ⟨_, Txn.decode_regRead 0 r.offset_aligned r.offset_le⟩
  | wb a v =>
    have hbyte : (v.setWidth 32).toNat < 256 := by
      rw [BitVec.toNat_setWidth_of_le (by decide)]
      exact v.isLt
    exact ⟨_, Txn.decode_msgWrite8 a hbyte⟩
  | ww a v => exact ⟨_, Txn.decode_msgWrite32 a v⟩
  | rb a => exact ⟨_, Txn.decode_msgRead8 a 0⟩
  | rw a => exact ⟨_, Txn.decode_msgRead32 a 0⟩

end Sys2Proof.Machine

namespace Sys2Proof.Proofs

open Sys2Proof.Machine

/-- Settles O55: PENDING is valid while BUSY = 1, and no command faults or is refused, so only the host's turn can stop. -/
theorem noInternalViolationIsReachable : Obligations.NoInternalViolationIsReachable := by
  intro s hs
  obtain ⟨t, hnext⟩ | ⟨hrefused, hturn⟩ := hs.step_next_or_refused
  · rw [hnext]
    exact ⟨nofun, nofun⟩
  · rw [hrefused]
    exact ⟨nofun, fun _ _ => hturn⟩

/-- Settles O39: of the effects of a transaction, a read has the answer or the bad access with an answer. -/
theorem readsHaveNoSideEffect : Obligations.ReadsHaveNoSideEffect := by
  intro s t x rest hdir ha h
  cases step_host_effect ha h with
  | answered _ _ n y => exact ⟨rfl, ⟨y, rfl⟩, fun _ => rfl⟩
  | badRead _ hspace hbad y =>
    refine ⟨rfl, ⟨y, rfl⟩, fun hok => ?_⟩
    rcases hok with hreg | hok
    · cases hspace.symm.trans hreg
    · exact absurd hok hbad
  | status v hx => cases (congrArg Txn.dir hx).symm.trans hdir
  | badWrite hwrite | ignored hwrite | ctrl hwrite | dropped _ hwrite | accepted _ hwrite | operand _ hwrite
  | stored _ hwrite =>
    cases hwrite.symm.trans hdir

/-- Settles O40: a transaction that decodes is one of the six primitives, none of which these are; and every line of a host
program decodes. -/
theorem inexpressibleAccessesAreRefused : Obligations.InexpressibleAccessesAreRefused := by
  intro s x rest ha
  have hrefused (hno : ∀ op, x.decode ≠ some op) : step s = .refused .inexpressibleAccess :=
    step_refused ha (Option.eq_none_iff_forall_ne_some.mpr hno)
  refine ⟨fun hspace hbad => hrefused fun op hop => ?reg, fun hspace h8 h32 => hrefused fun op hop => ?width,
    fun hspace hdir h8 hdata => hrefused fun op hop => ?byte, fun l hl => ?line⟩
  case reg =>
    have := Txn.decode_inv hop
    simp only [hspace, reduceCtorEq, false_and, or_false] at this
    omega
  case width =>
    have := Txn.decode_inv hop
    simp only [hspace, reduceCtorEq, false_and, false_or] at this
    omega
  case byte =>
    have := Txn.decode_inv hop
    simp only [hspace, hdir, reduceCtorEq, false_and, and_false, false_or] at this
    omega
  case line =>
    obtain ⟨op, hop⟩ := l.txn_decode
    exact ⟨_, (step_host ha).trans (hostTurn_of_decode (hl ▸ hop) _)⟩

/-- Settles O44: the engine and the reset keep every byte of MSG, and the host's transaction must cover the byte. -/
theorem msgChangesOnlyByHostWrites : Obligations.MsgChangesOnlyByHostWrites := by
  intro s t a h hne
  cases step_effect h with
  | idle => exact absurd rfl hne
  | command rest v _ _ _ hexec => exact absurd ((exec_keepsInputs hexec).msg_byte a) hne
  | reset => exact absurd rfl hne
  | host x rest ha _ he =>
    obtain ⟨hb, hspace, hdir, hok, hcovers⟩ := he.msgByte_ne hne
    exact ⟨hb, hcovers.lt_msgCap hok, x, rest, ha, hspace, hdir, hcovers⟩

/-- Settles O45: the effects that write an operand, MSG or the command ask for BUSY = 0. -/
theorem inputsStayFixedWhileBusy : Obligations.InputsStayFixedWhileBusy := by
  intro s t x rest hb ha h
  cases step_host_effect ha h with
  | answered | badRead | badWrite | ignored | ctrl | status | dropped =>
    exact ⟨hb, rfl, rfl, rfl, rfl, rfl, rfl, rfl, rfl, rfl, rfl, rfl, rfl, fun _ => rfl⟩
  | accepted hidle | operand hidle | stored hidle => exact absurd (hb.symm.trans hidle) Bool.true_eq_false.mp

/-- Settles O46: the host writes none of these registers, and a failed command writes no register but STATUS. -/
theorem readOnlyResultsChangeOnlyByCommands : Obligations.ReadOnlyResultsChangeOnlyByCommands := by
  intro s t h hne
  cases step_effect h with
  | idle => simp at hne
  | command rest v hb _ _ hexec =>
    obtain ⟨c, -, rfl⟩ | ⟨-, rfl⟩ := exec_cases hexec
    · simp at hne
    · exact .inl ⟨hb, rfl, rfl⟩
  | host x rest _ _ he =>
    obtain ⟨hwv, hw, hdig, hround⟩ := he.keeps_results
    simp [hwv, hw, hdig, hround] at hne
  | reset rest ha => exact .inr ⟨rest, ha⟩

/-- Settles O47: by the effects of the turns, of which only W1C, reset, the dropped write (WERR) and the bad MSG access (AERR)
write a flag. -/
theorem werrAndAerrAreSticky : Obligations.WerrAndAerrAreSticky :=
  fun _ _ h => ⟨(step_werr h).fall, (step_aerr h).fall, (step_werr h).rise, (step_aerr h).rise⟩

end Sys2Proof.Proofs

/-! The engine's turn on a pending command, its interrupt, and the runs that end with the engine idle (R95, R96, R266). -/

namespace Sys2Proof.Machine

/-! ### Acceptance and completion -/

/-- A fetched word is accepted and the engine moves next, so the step runs what the word decodes to (R93, R95). -/
theorem step_withFetchWord (s : State) (v : Word) : step (s.withFetchWord 32 v.toNat) = exec (decode v) (s.accept v) := by
  have hword : BitVec.ofNat 32 (v.toNat % 2 ^ 32) = v := by
    rw [Nat.mod_eq_of_lt v.isLt, BitVec.ofNat_toNat, BitVec.setWidth_eq]
  rw [State.withFetchWord, hword, step_engine rfl]
  exact engineTurn_busy rfl rfl

/-- A completed command leaves the engine idle, with DONE or ERR set. -/
theorem exec_ends {i : Instr} {s t : State} (h : exec i s = .next t) :
    t.busy = false ∧ (t.done = true ∨ t.err = true) := by
  obtain hok | ⟨c, hfail⟩ := exec_completion h
  · exact ⟨hok.busy, .inl hok.done⟩
  · exact ⟨hfail.busy, .inr hfail.err⟩

/-- At a completion IRQ is CTRL.IE (R41, R97, R98). -/
theorem exec_irq {i : Instr} {s t : State} (h : exec i s = .next t) : t.irq = s.ctrlIE := by
  obtain ⟨-, hflag⟩ := exec_ends h
  have hflags : (t.done || t.err) = true := Bool.or_eq_true_iff.mpr hflag
  rw [State.irq, hflags, Bool.and_true, (exec_keepsInputs h).ctrl]

/-- With an empty agenda, or the engine's turn first, a pending command completes in one step. -/
theorem step_completes {s : State} {v : Word} (hb : s.busy = true) (hp : s.pending = some v)
    (ha : s.agenda = [] ∨ ∃ rest, s.agenda = .engine :: rest) :
    ∃ t, step s = .next t ∧ exec (decode v) { s with agenda := s.agenda.tail } = .next t := by
  obtain ⟨t, hexec, -⟩ := exec_completes (decode v) { s with agenda := s.agenda.tail }
  refine ⟨t, ?_, hexec⟩
  obtain hnil | ⟨rest, hengine⟩ := ha
  · have hs : { s with agenda := s.agenda.tail } = s := by rw [hnil, List.tail_nil, ← hnil]
    rw [step_nil hnil, engineTurn_busy hb hp, ← hexec, hs]
  · rw [step_engine hengine, ← hexec, hengine]
    exact engineTurn_busy hb hp

/-! ### Runs to the end of the agenda -/

/-- What the progress of a run asks of its first state: the invariant, and only accesses that the interface has. -/
structure Runs (s : State) : Prop where
  inv : s.Inv
  expressible : ∀ x, Turn.host x ∈ s.agenda → x.decode ≠ none

theorem Runs.step {s : State} (h : Runs s) : ∃ t, Machine.step s = .next t ∧ t.agenda = s.agenda.tail ∧ Runs t := by
  obtain ⟨t, ht⟩ := h.inv.step_next h.expressible
  have htail := step_agenda ht
  exact ⟨t, ht, htail, h.inv.step ht, fun x hx => h.expressible x (List.mem_of_mem_tail (htail ▸ hx))⟩

/-- After the last turn of the agenda one more step is the engine's, and it leaves the engine idle. -/
theorem Runs.ends_idle {s : State} (h : Runs s) :
    ∃ t, run (s.agenda.length + 1) s = .next t ∧ t.busy = false ∧ t.agenda = [] := by
  obtain ⟨t, ht, htail, hruns⟩ := h.step
  match ha : s.agenda with
  | [] =>
    refine ⟨t, run_succ ht 0, ?_, by rw [htail, ha, List.tail_nil]⟩
    rw [step_nil ha] at ht
    obtain ⟨hb, rfl⟩ | ⟨v, -, -, hexec⟩ := engineTurn_cases ht
    · exact hb
    · exact (exec_ends hexec).1
  | x :: rest =>
    have hrest : t.agenda = rest := by rw [htail, ha, List.tail_cons]
    obtain ⟨u, hrun, hu⟩ := hruns.ends_idle
    rw [hrest] at hrun
    exact ⟨u, (run_succ ht _).trans hrun, hu⟩
termination_by s.agenda.length
decreasing_by simp [hrest, ha]

/-- With no reset to come, a pending command stays pending through the turns of the host, until the engine moves. -/
theorem Runs.reaches_engine {s : State} {v : Word} (h : Runs s) (hb : s.busy = true) (hp : s.pending = some v)
    (hreset : Turn.reset ∉ s.agenda) :
    ∃ j t, j ≤ s.agenda.length ∧ run j s = .next t ∧ Runs t ∧ t.busy = true ∧ t.pending = some v ∧
      (t.agenda = [] ∨ ∃ rest, t.agenda = .engine :: rest) := by
  match ha : s.agenda with
  | [] => exact ⟨0, s, Nat.zero_le _, rfl, h, hb, hp, .inl ha⟩
  | .engine :: rest => exact ⟨0, s, Nat.zero_le _, rfl, h, hb, hp, .inr ⟨rest, ha⟩⟩
  | .reset :: rest => exact absurd (ha ▸ List.mem_cons_self) hreset
  | .host x :: rest =>
    obtain ⟨u, hu, htail, hruns⟩ := h.step
    have hrest : u.agenda = rest := by rw [htail, ha, List.tail_cons]
    obtain ⟨hub, hup, -⟩ := Proofs.inputsStayFixedWhileBusy s u x rest hb ha hu
    have hureset : Turn.reset ∉ u.agenda := fun hmem => hreset (List.mem_of_mem_tail (htail ▸ hmem))
    obtain ⟨j, t, hj, hrun, ht⟩ := hruns.reaches_engine hub (hup.trans hp) hureset
    rw [hrest] at hj
    exact ⟨j + 1, t, Nat.succ_le_succ hj, (run_succ hu j).trans hrun, ht⟩
termination_by s.agenda.length
decreasing_by simp [hrest, ha]

end Sys2Proof.Machine

namespace Sys2Proof.Proofs

open Sys2Proof.Machine

/-- Settles O5: in each case the engine moves, finds the word in PENDING and performs what it decodes to. -/
theorem engineStepRunsTheDecodedCommand : Obligations.EngineStepRunsTheDecodedCommand := by
  refine fun s v => ⟨fun hb hp ha => ?silent, fun rest hb hp ha => ?turn, step_withFetchWord s v⟩
  case silent => rw [step_nil ha, engineTurn_busy hb hp]
  case turn =>
    rw [step_engine ha]
    exact engineTurn_busy hb hp

/-- Settles O9: the turns of the host leave the command pending until the engine moves, which completes it; and the engine has
the last step. -/
theorem everyAcceptedCommandCompletesInTheEnd : Obligations.EveryAcceptedCommandCompletesInTheEnd := by
  intro s hs hx
  have hruns : Runs s := ⟨hs, hx⟩
  refine ⟨fun v hb hp hreset => ?_, hruns.ends_idle⟩
  obtain ⟨j, t, hj, hrun, ht, htb, htp, hturn⟩ := hruns.reaches_engine hb hp hreset
  obtain ⟨u, hstep, hexec⟩ := step_completes htb htp hturn
  obtain ⟨hub, hend⟩ := exec_ends hexec
  have hcmd : u.cmd = v := (exec_keepsInputs hexec).cmd.trans (ht.inv.cmd_is_pending v htp)
  exact ⟨j, t, u, hj, hrun, htb, htp, hstep, hexec, hub, hcmd, hend⟩

/-- Settles O49: a completion leaves DONE or ERR set; the acknowledgement, the acceptance and the reset clear both. -/
theorem interruptRisesAndFalls : Obligations.InterruptRisesAndFalls := by
  refine fun s rest => ⟨fun v hb hp ha => ?completion, fun v h1 h2 ha => ?acknowledged, fun v hb ha => ?accepted,
    fun ha => ⟨_, step_reset ha, State.reset_irq⟩⟩
  case completion =>
    obtain ⟨t, hstep, hexec⟩ := step_completes hb hp (.inr ⟨rest, ha⟩)
    have hirq := exec_irq hexec
    exact ⟨t, hstep, hirq⟩
  case acknowledged =>
    refine ⟨_, step_writeReg (r := .status) ha, ?_⟩
    simp [State.writeReg, State.irq, h1, h2]
  case accepted =>
    refine ⟨_, step_cmdWrite_idle hb ha, ?_⟩
    simp [State.irq]

end Sys2Proof.Proofs

/-! Equal operands give equal results and equal errors (R99, R235), and BLOCK's index in range (R232). -/

namespace Sys2Proof.Machine

/-! ### Equal operands -/

/-- A command with an error leaves its code. -/
theorem exec_errcode {i : Instr} {s t : State} {c : CommandError} (hc : s.commandError i = some c)
    (h : exec i s = .next t) : t.errcode = some c := by
  rw [exec_of_error hc] at h
  cases h
  rfl

/-- Two runs that end without an error leave the data path on each state. -/
theorem exec_ok_pair {i : Instr} {s s' t t' : State} (h : exec i s = .next t) (h' : exec i s' = .next t')
    (hok : s.commandError i = none) (heq : s'.commandError i = s.commandError i) :
    t = (s.dataPath i).succeed ∧ t' = (s'.dataPath i).succeed := by
  rw [exec_of_ok hok] at h
  rw [exec_of_ok (heq.trans hok)] at h'
  cases h
  cases h'
  exact ⟨rfl, rfl⟩

theorem State.lengthError_congr {s s' : State} (hlen : s'.len = s.len) (hcap : s'.msgCap = s.msgCap) :
    s'.lengthError = s.lengthError := by
  rw [State.lengthError, State.lengthError, hlen, hcap]

theorem State.blockError_congr {s s' : State} (hlen : s'.len = s.len) (hcap : s'.msgCap = s.msgCap)
    (hidx : s'.blkidx = s.blkidx) : s'.blockError = s.blockError := by
  rw [State.blockError, State.blockError, State.lengthError_congr hlen hcap, hlen, hidx]

/-- Two runs that end in the same error leave the same code. -/
theorem exec_errcode_congr {i : Instr} {s s' t t' : State} (h : exec i s = .next t) (h' : exec i s' = .next t')
    (hsome : s.commandError i ≠ none) (heq : s'.commandError i = s.commandError i) : t'.errcode = t.errcode := by
  obtain ⟨c, hc⟩ := Option.ne_none_iff_exists'.mp hsome
  rw [exec_errcode hc h, exec_errcode (heq.trans hc) h']

/-- A length or a block index out of range is an error. -/
theorem State.blockError_ne_none {s : State} (h : s.msgCap.toNat < s.len ∨ (s.len + 8) / 64 + 1 ≤ s.blkidx.toNat) :
    s.blockError ≠ none := by
  intro hnone
  obtain ⟨hlen, hidx⟩ := State.blockError_eq_none hnone
  obtain ⟨-, hfits⟩ := State.lengthError_eq_none hlen
  unfold blockCount at hidx
  omega

theorem State.blockError_of_fits {s : State} (hc : s.len ≤ s.msgCap.toNat) (hj : s.blkidx.toNat < (s.len + 8) / 64 + 1) :
    s.blockError = none :=
  State.blockError_none (State.lengthError_fits hc) hj

theorem SameMessage.len {s s' : State} (h : SameMessage s s') : s'.len = s.len := by
  rw [State.len, State.len, h.len_lo, h.len_hi]

theorem SameMessage.message {s s' : State} (h : SameMessage s s') : s'.message = s.message := by
  rw [State.message, State.message, h.len]
  exact List.map_congr_left fun a ha => h.bytes a (List.mem_range.mp ha)

theorem SameMessage.padBlock {s s' : State} (h : SameMessage s s') (j : Nat) :
    Machine.padBlock s'.msgByte s'.len j = Machine.padBlock s.msgByte s.len j := by
  rw [h.len]
  exact padBlock_congr h.bytes j

theorem State.hashMessage_round (s : State) : s.hashMessage.round = 64 := rfl

theorem State.hashMessage_dig (s : State) : s.hashMessage.dig = s.hashMessage.h := rfl

/-- The message alone decides what ONE_SHOT writes (R99, R235). -/
theorem SameMessage.hashMessage {s s' : State} (h : SameMessage s s') :
    s'.hashMessage.h = s.hashMessage.h ∧ s'.hashMessage.blk = s.hashMessage.blk ∧ s'.hashMessage.w = s.hashMessage.w ∧
      s'.hashMessage.wv = s.hashMessage.wv ∧ s'.hashMessage.round = s.hashMessage.round ∧
      s'.hashMessage.dig = s.hashMessage.dig := by
  have hh : s'.hashMessage.h = s.hashMessage.h := by
    rw [State.hashMessage_h, State.hashMessage_h, h.message, h.len]
  obtain ⟨hblk, hw, hwv⟩ := s.hashMessage_lastBlock
  obtain ⟨hblk', hw', hwv'⟩ := s'.hashMessage_lastBlock
  have hblk_eq : s'.hashMessage.blk = s.hashMessage.blk := by rw [hblk', hblk, h.message, h.len]
  have hw_eq : s'.hashMessage.w = s.hashMessage.w := by rw [hw', hw, hblk_eq]
  have hwv_eq : s'.hashMessage.wv = s.hashMessage.wv := by rw [hwv', hwv, h.message, h.len, hw_eq]
  refine ⟨hh, hblk_eq, hw_eq, hwv_eq, ?_, ?_⟩
  · rw [State.hashMessage_round, State.hashMessage_round]
  · rw [State.hashMessage_dig, State.hashMessage_dig, hh]

end Sys2Proof.Machine

namespace Sys2Proof.Proofs

open Sys2Proof.Machine

/-- Settles O25: by the data path of each command, whose message operands are the message or its padded blocks, and by the
checks, which read the lengths and BLKIDX only. -/
theorem resultsDependOnlyOnTheOperands : Obligations.ResultsDependOnlyOnTheOperands := by
  intro s s' t t'
  refine ⟨fun h h' => ?init, fun h h' hlen hcap hidx => ⟨fun hfits hj hmsg => ?load, fun hout => ?loadError⟩,
    fun h h' hblk => ?expand, fun h h' hh hw => ?compress, fun h h' hh => ?finalize,
    fun h h' hlen hcap => ⟨fun hfits hmsg => ?oneShot, fun hout => ?oneShotError⟩,
    fun h h' hlen hcap hidx => ⟨fun hfits hj hmsg hh => ?block, fun hout => ?blockError⟩, fun v v' h h' => ?illegal⟩
  case init =>
    obtain ⟨rfl, rfl⟩ := exec_ok_pair h h' rfl rfl
    rfl
  case load =>
    obtain ⟨rfl, rfl⟩ := exec_ok_pair h h' (State.blockError_of_fits hfits hj) (State.blockError_congr hlen hcap hidx)
    simp only [State.dataPath, State.succeed_blk, State.loadBlock_blk, hmsg.padBlock, hidx]
  case expand =>
    obtain ⟨rfl, rfl⟩ := exec_ok_pair h h' rfl rfl
    simp only [State.dataPath, State.succeed_w, State.expandW_w, hblk]
  case compress =>
    obtain ⟨rfl, rfl⟩ := exec_ok_pair h h' rfl rfl
    simp [State.dataPath, hh, hw]
  case finalize =>
    obtain ⟨rfl, rfl⟩ := exec_ok_pair h h' rfl rfl
    exact hh
  case oneShot =>
    obtain ⟨rfl, rfl⟩ := exec_ok_pair h h' (State.lengthError_fits hfits) (State.lengthError_congr hlen hcap)
    exact hmsg.hashMessage
  case block =>
    obtain ⟨rfl, rfl⟩ := exec_ok_pair h h' (State.blockError_of_fits hfits hj) (State.blockError_congr hlen hcap hidx)
    simp [State.dataPath, hmsg.padBlock, hidx, hh]
  case loadError => exact exec_errcode_congr h h' (State.blockError_ne_none hout) (State.blockError_congr hlen hcap hidx)
  case blockError => exact exec_errcode_congr h h' (State.blockError_ne_none hout) (State.blockError_congr hlen hcap hidx)
  case oneShotError =>
    refine exec_errcode_congr h h' (fun hnone => ?_) (State.lengthError_congr hlen hcap)
    obtain ⟨-, hfits⟩ := State.lengthError_eq_none hnone
    exact absurd hfits hout.not_ge
  case illegal => rw [exec_errcode rfl h, exec_errcode rfl h']

/-- Settles O21: a BLOCK without an error had an index below N(L), which the legal MSG_CAP keeps far below 2^32. -/
theorem blockNeverWrapsItsIndex : Obligations.BlockNeverWrapsItsIndex := by
  intro s t hs h herr
  obtain ⟨c, -, rfl⟩ | ⟨hok, rfl⟩ := exec_cases h
  case inl => exact absurd herr Bool.true_eq_false.mp
  case inr =>
    obtain ⟨hlen, hidx⟩ := State.blockError_eq_none hok
    obtain ⟨-, hfits⟩ := State.lengthError_eq_none hlen
    obtain ⟨-, -, hcap⟩ := hs.cap_legal
    have hnext : ((s.dataPath .block).succeed).blkidx = s.blkidx + 1 := rfl
    have hone : (1 : Word).toNat = 1 := rfl
    rw [hnext, BitVec.toNat_add, hone]
    unfold blockCount at hidx
    omega

end Sys2Proof.Proofs

/-! The registers as the host writes and reads them: each by its offset (R39, R40), the settled and the unsettled ones (R67),
and STATUS, CTRL and ROUND bit by bit (R31, R33, R38). -/

namespace Sys2Proof.Machine

/-! ### Guarded writes while idle -/

/-- While BUSY = 0 a write to a guarded register is performed (R68). -/
theorem step_guardedWrite {s : State} {r : Reg} {v : Word} {rest : List Turn} {f : State → State} (hb : s.busy = false)
    (ha : s.agenda = .host ⟨.write, .reg, r.offset, 32, v⟩ :: rest) (hf : ∀ u : State, u.writeReg v r = u.guarded f) :
    step s = .next (f { s with agenda := rest }) := by
  rw [step_writeReg ha, hf, State.guarded_idle]
  exact hb

/-! ### Unsettled registers by offset -/

theorem Reg.unsettledWhileBusy_iff (r : Reg) : r.unsettledWhileBusy = true ↔ UnsettledOffset r.offset := by
  cases r <;> simp [Reg.unsettledWhileBusy, UnsettledOffset, Reg.offset] <;> omega

/-- The offsets of R67 are offsets of registers. -/
theorem UnsettledOffset.exists_reg {off : Nat} (h4 : off % 4 = 0) (h : UnsettledOffset off) : ∃ r : Reg, r.offset = off := by
  rcases h with rfl | rfl | ⟨hlo, hhi⟩ | ⟨hlo, hhi⟩ | ⟨hlo, hhi⟩
  · exact ⟨.blkidx, rfl⟩
  · exact ⟨.round, rfl⟩
  · rcases Nat.lt_or_ge off 0x060 with h | h
    · exact ⟨.h ⟨(off - 0x040) / 4, by omega⟩, by simp only [Reg.offset]; omega⟩
    rcases Nat.lt_or_ge off 0x080 with h | h
    · exact ⟨.wv ⟨(off - 0x060) / 4, by omega⟩, by simp only [Reg.offset]; omega⟩
    · exact ⟨.blk ⟨(off - 0x080) / 4, by omega⟩, by simp only [Reg.offset]; omega⟩
  · exact ⟨.w ⟨(off - 0x100) / 4, by omega⟩, by simp only [Reg.offset]; omega⟩
  · exact ⟨.dig ⟨(off - 0x320) / 4, by omega⟩, by simp only [Reg.offset]; omega⟩

/-- While BUSY = 1 an unsettled register reads as a fresh free word (R67). -/
theorem State.regRead_unsettled {s : State} {r : Reg} (hb : s.busy = true) (hr : r.unsettledWhileBusy = true) :
    s.regRead r.offset = { s with draws := s.draws + 1 }.answer (.u32 (Config.freeWord s.draws)) := by
  simp [State.regRead, Reg.ofOffset_offset, hb, hr]

/-! ### What an offset reads as -/

/-- The value at an offset of the REG space: the register's, and 0 where the offset is reserved (R39, R40). -/
def State.offsetValue (s : State) (off : Nat) : Word :=
  match Reg.ofOffset off with
  | none => 0
  | some r => s.regValue r

@[simp] theorem State.offsetValue_agenda (s : State) (rest : List Turn) (off : Nat) :
    ({ s with agenda := rest } : State).offsetValue off = s.offsetValue off := by
  cases hr : Reg.ofOffset off <;> simp [State.offsetValue, hr]

theorem State.offsetValue_reg (s : State) (r : Reg) : s.offsetValue r.offset = s.regValue r := by
  simp [State.offsetValue, Reg.ofOffset_offset]

/-- The gaps of the map are reserved (R39, R40). -/
theorem State.offsetValue_reserved (s : State) {off : Nat} (h4 : off % 4 = 0)
    (h : (0x028 ≤ off ∧ off < 0x040) ∨ (0x0C0 ≤ off ∧ off < 0x100) ∨ 0x340 ≤ off) : s.offsetValue off = 0 := by
  cases hr : Reg.ofOffset off with
  | none => simp [State.offsetValue, hr]
  | some r =>
    exfalso
    obtain rfl := Reg.offset_of_ofOffset h4 hr
    cases r <;> simp only [Reg.offset] at h <;> omega

/-- A read that is settled adds the value at its offset to the answers. -/
theorem State.regRead_value {s : State} {off : Nat} (h4 : off % 4 = 0) (h : s.busy = false ∨ ¬UnsettledOffset off) :
    s.regRead off = s.answer (.u32 (s.offsetValue off)) := by
  cases hr : Reg.ofOffset off with
  | none => simp [State.regRead, State.offsetValue, hr]
  | some r =>
    obtain rfl := Reg.offset_of_ofOffset h4 hr
    have hsettled : (s.busy && r.unsettledWhileBusy) = false := by
      rw [← r.unsettledWhileBusy_iff, Bool.not_eq_true] at h
      rcases h with h | h <;> simp [h]
    simp [State.regRead, State.offsetValue, hr, hsettled]

/-! ### The words of STATUS, CTRL and ROUND -/

theorem State.ctrlWord_bit_zero (s : State) {i : Nat} (hi : 1 ≤ i) : s.ctrlWord.getLsbD i = false := by
  rw [State.ctrlWord, BitVec.getLsbD_append, if_neg (by omega)]
  exact BitVec.getLsbD_zero

theorem State.statusWord_bit_busy (s : State) : s.statusWord.getLsbD 0 = s.busy := by
  simp only [State.statusWord, BitVec.getLsbD_append]
  simp

theorem State.statusWord_bit_werr (s : State) : s.statusWord.getLsbD 8 = s.werr := by
  simp only [State.statusWord, BitVec.getLsbD_append]
  simp

theorem State.statusWord_bit_aerr (s : State) : s.statusWord.getLsbD 9 = s.aerr := by
  simp only [State.statusWord, BitVec.getLsbD_append]
  simp

/-- The reserved bits of STATUS read 0 (R33). -/
theorem State.statusWord_bit_reserved (s : State) {i : Nat} (hi : i = 3 ∨ i = 7 ∨ 10 ≤ i) :
    s.statusWord.getLsbD i = false := by
  simp only [State.statusWord, BitVec.getLsbD_append]
  obtain rfl | rfl | hi := hi
  · simp
  · simp
  · iterate 8 rw [if_neg (by omega)]
    exact BitVec.getLsbD_zero

theorem State.roundWord_toNat (s : State) : s.roundWord.toNat = s.round.toNat := by
  rw [State.roundWord, toNat_append_eq]
  simp

end Sys2Proof.Machine

namespace Sys2Proof.Proofs

open Sys2Proof.Machine

/-- Settles O33: while BUSY = 0 a guarded write is performed; what is neither guarded nor CTRL nor STATUS is ignored. -/
theorem registerWritesWhileIdle : Obligations.RegisterWritesWhileIdle := by
  intro s v rest hb
  refine ⟨fun ha => ?lenLo, fun ha => ?lenHi, fun ha => ?blkidx, fun k ha => ?h, fun k ha => ?blk,
    fun off h4 hl hg hc hs ha => ?ignored⟩
  case lenLo => exact step_guardedWrite (r := .lenLo) (f := fun s => { s with lenLo := v }) hb ha fun _ => rfl
  case lenHi => exact step_guardedWrite (r := .lenHi) (f := fun s => { s with lenHi := v }) hb ha fun _ => rfl
  case blkidx => exact step_guardedWrite (r := .blkidx) (f := fun s => { s with blkidx := v }) hb ha fun _ => rfl
  case h =>
    refine ⟨s.h.set k v, ?_, fun n => ?_⟩
    · exact step_guardedWrite (r := .h k) (f := fun s => { s with h := s.h.set k v }) hb ha fun _ => rfl
    · simp only [Vector.getElem_set, Fin.ext_iff, eq_comm]
  case blk =>
    refine ⟨s.blk.set k v, ?_, fun n => ?_⟩
    · exact step_guardedWrite (r := .blk k) (f := fun s => { s with blk := s.blk.set k v }) hb ha fun _ => rfl
    · simp only [Vector.getElem_set, Fin.ext_iff, eq_comm]
  case ignored => rw [step_regWrite h4 hl ha, State.regWrite_ignored h4 hg hc hs]

/-- Settles O34: CTRL and STATUS are not guarded, and STATUS clears each field by the bit that names it. -/
theorem controlAndStatusWrites : Obligations.ControlAndStatusWrites := by
  intro s v rest
  refine ⟨fun ha => step_writeReg (r := .ctrl) ha, fun ha => ⟨_, step_writeReg (r := .status) ha, rfl, ?_⟩⟩
  simp +contextual [State.writeReg]

/-- Settles O35: the fields of each word by their place in it; ERRCODE by the codes of R261. -/
theorem statusControlAndRoundFields : Obligations.StatusControlAndRoundFields := by
  intro s
  refine ⟨s.statusWord_bit_busy, s.statusWord_bit_done, s.statusWord_bit_err, ?code, s.statusWord_bit_werr,
    s.statusWord_bit_aerr, s.statusWord_bit_reserved (.inl rfl), s.statusWord_bit_reserved (.inr (.inl rfl)),
    fun i hi => s.statusWord_bit_reserved (.inr (.inr hi)), s.ctrlWord_bit_ie, fun i hi => s.ctrlWord_bit_zero hi,
    s.roundWord_toNat⟩
  case code =>
    rw [State.statusWord_errcode, State.errcodeField]
    rcases s.errcode with _ | _ | _ | _ | _ <;> rfl

/-- Settles O36: the read answers the value at its offset, which is the named register's, or 0 where no register is. -/
theorem registerReadsFollowTheMap : Obligations.RegisterReadsFollowTheMap := by
  intro s off rest h4 hl hsettled ha
  have hstep : step s = .next { s with agenda := rest, answers := .u32 (s.offsetValue off) :: s.answers } := by
    rw [step_regRead h4 hl ha, State.regRead_value (s := { s with agenda := rest }) h4 hsettled, State.offsetValue_agenda]
    rfl
  have hreg (r : Reg) (hoff : off = r.offset) : s.offsetValue off = s.regValue r := hoff ▸ s.offsetValue_reg r
  exact ⟨_, hstep, hreg .id, hreg .ctrl, hreg .cmd, hreg .status, hreg .lenLo, hreg .lenHi, hreg .blkidx, hreg .nblk,
    hreg .round, hreg .msgcap, fun k => hreg (.h k), fun k => hreg (.wv k), fun k => hreg (.blk k), fun i => hreg (.w i),
    fun i => hreg (.k i), fun k => hreg (.iv k), fun k => hreg (.dig k), s.offsetValue_reserved h4⟩

/-- Settles O38: these offsets are the unsettled registers', whose read draws a free word. -/
theorem unsettledReadsWhileBusy : Obligations.UnsettledReadsWhileBusy := by
  intro s off rest h4 hb hoff ha
  obtain ⟨r, rfl⟩ := UnsettledOffset.exists_reg h4 hoff
  refine ⟨Config.freeWord s.draws, ?_⟩
  rw [step_regRead h4 r.offset_le ha, State.regRead_unsettled (s := { s with agenda := rest }) hb
    (r.unsettledWhileBusy_iff.mpr hoff)]
  rfl

/-- Settles O52: the fields as `State.reset` gives them, the words computed from them, and the length 0, which is one block. -/
theorem resetStateValues : Obligations.ResetStateValues := by
  obtain ⟨-, -, hnblk⟩ := nblkReadsTheBlockCount
  exact ⟨by decide, rfl, State.reset_statusWord, rfl, rfl, rfl, hnblk, by decide, State.reset_inv.cap_legal, rfl,
    Vector.toList_replicate, Vector.toList_replicate, Vector.toList_replicate, Vector.toList_replicate, rfl,
    State.reset_irq, rfl⟩

end Sys2Proof.Proofs

/-! Host sequences and whole messages: BLOCK by BLOCK against ONE_SHOT (R294, R298), the host's write that races with ONE_SHOT
(P5), and the padded blocks one after the other (R148). -/

namespace Sys2Proof.Machine

/-! ### One BLOCK per block, and FINALIZE -/

/-- BLOCK, issued and waited for, leads where its data path leads. -/
theorem TurnsLead.blockCommand {s : State} (h : s.blockError = none) :
    TurnsLead (runTurns 0 .block) s (s.dataPath .block) := by
  refine .command (f := fun u => u.dataPath .block) rfl (fun u hd => exec_of_ok ?_) (fun _ => rfl) fun _ => rfl
  exact (congrArg State.blockError hd :).trans h

/-- From BLKIDX = 0, n commands BLOCK lead where n block steps lead, with BLKIDX at n. -/
theorem TurnsLead.blockCommands {s : State} (hlen : s.lengthError = none) {n : Nat} (hn : n ≤ blockCount s.len)
    (hword : n < 2 ^ 32) :
    TurnsLead (List.replicate n (runTurns 0 .block)).flatten { s with blkidx := 0 }
      { s.hashBlocks n with blkidx := BitVec.ofNat 32 n } := by
  induction n with
  | zero => exact TurnsLead.nil _
  | succ n ih =>
    have hidx : (BitVec.ofNat 32 n).toNat = n := (BitVec.toNat_ofNat ..).trans (Nat.mod_eq_of_lt (by omega))
    have hkeeps : KeepsInputs s (s.hashBlocks n) := KeepsInputs.hashBlocks s n
    have hok : State.blockError { s.hashBlocks n with blkidx := BitVec.ofNat 32 n } = none :=
      State.blockError_none (hkeeps.lengthError.trans hlen)
        (hidx.trans_lt (Nat.lt_of_lt_of_eq hn (congrArg blockCount hkeeps.len.symm)))
    have hblock : State.dataPath { s.hashBlocks n with blkidx := BitVec.ofNat 32 n } .block =
        { s.hashBlocks (n + 1) with blkidx := BitVec.ofNat 32 (n + 1) } := by
      rw [State.dataPath, hidx, BitVec.ofNat_add]
      rfl
    rw [List.replicate_succ', List.flatten_append, List.flatten_singleton, ← hblock]
    exact (ih (by omega) (by omega)).append (TurnsLead.blockCommand hok)

/-- FINALIZE, issued to an idle engine and waited for, ends with DIG = H and without error (R93, R222). -/
theorem run_finalize {s : State} (hb : s.busy = false) (ha : s.agenda = runTurns 0 .finalize) :
    ∃ t, run 3 s = .next t ∧ t.dig = s.h ∧ t.h = s.h ∧ t.blkidx = s.blkidx ∧ t.err = false := by
  have hword : decode (encode .finalize) = .finalize := decode_encode rfl
  have hwrite := step_cmdWrite_idle hb ha
  have hturn : step (({ s with agenda := waitTurns 0 } : State).accept (encode .finalize)) = .next _ :=
    (step_engine rfl).trans ((engineTurn_busy rfl rfl).trans (hword ▸ exec_finalize _))
  have hpoll := step_readSettled (s := (({ s with agenda := [(HostLine.rd .status).turn] } : State).accept
    (encode .finalize)).serializeH.succeed) (r := .status) rfl rfl
  exact ⟨_, (run_succ hwrite 2).trans ((run_succ hturn 1).trans (run_succ hpoll 0)), rfl, rfl, rfl, rfl⟩

/-- The message that fits has fewer than 2^32 blocks. -/
theorem State.blockCount_lt_of_fits {s : State} (hc : s.len ≤ s.msgCap.toNat) : blockCount s.len < 2 ^ 32 := by
  have := State.len_lt_of_fits hc
  unfold blockCount
  omega

/-- INIT, BLKIDX = 0 and one BLOCK per block lead where the block steps of the whole message lead. -/
theorem TurnsLead.blockByBlock {s : State} (hc : s.len ≤ s.msgCap.toNat) :
    TurnsLead (runTurns 0 .init ++ (HostLine.wr .blkidx 0).turn ::
        (List.replicate (blockCount s.len) (runTurns 0 .block)).flatten) s
      { s.initHash.hashBlocks (blockCount s.len) with blkidx := BitVec.ofNat 32 (blockCount s.len) } :=
  (TurnsLead.init s).append ((TurnsLead.writeBlkidx s.initHash 0).append
    (TurnsLead.blockCommands (s := s.initHash) (State.lengthError_fits (s := s) hc) le_rfl
      (State.blockCount_lt_of_fits hc)))

/-! ### ONE_SHOT pending -/

theorem decode_oneShot : decode 0x00000006 = .oneShot := decode_legal (by decide) rfl

/-- The engine's turn on a pending ONE_SHOT whose message fits. -/
theorem step_oneShot {s : State} {rest : List Turn} (hb : s.busy = true) (hp : s.pending = some 0x00000006)
    (hc : s.len ≤ s.msgCap.toNat) (ha : s.agenda = .engine :: rest) :
    ∃ t, step s = .next t ∧ t.busy = false ∧ t.agenda = rest ∧ t.dig = s.hashMessage.dig ∧ t.h = t.dig ∧
      t.werr = s.werr := by
  have hexec := exec_oneShot_of_fits (s := { s with agenda := rest }) hc
  have hkeeps := exec_keepsInputs hexec
  obtain ⟨-, -, hagenda, -⟩ := hkeeps.own_fields
  have hsame : SameMessage s { s with agenda := rest } := ⟨rfl, rfl, rfl, fun _ _ => rfl⟩
  obtain ⟨-, -, -, -, -, hdig⟩ := hsame.hashMessage
  refine ⟨_, ?_, rfl, hagenda, hdig, rfl, hkeeps.werr⟩
  rw [step_engine ha, engineTurn_busy (s := { s with agenda := rest }) hb hp, decode_oneShot, hexec]

/-! ### The padded blocks one after the other -/

/-- The bytes of padblock(L, j) are the 64 bytes of the padded message from 64·j on (R148). -/
theorem ofFn_padBlock {m : List Byte} {j : Nat} (hj : j < blockCount m.length) :
    (List.ofFn fun n : Fin 64 => wordByte (padBlock (fun a => m.getD a 0) m.length j)[n.val / 4] (n.val % 4)) =
      ((pad m).drop (64 * j)).take 64 := by
  have hlen := pad_length m
  refine List.ext_getElem ?_ fun n hn _ => ?_
  · rw [List.length_ofFn, List.length_take, List.length_drop]
    omega
  · rw [List.length_ofFn] at hn
    have hbyte := pad_getElem? (m := m) (q := 64 * j + n) (by omega)
    rw [List.getElem_ofFn, List.getElem_take, List.getElem_drop, padBlock_byte _ _ _ hn]
    exact (List.getElem_eq_iff _).mpr hbyte |>.symm

/-- The first n blocks are the first 64·n bytes of the padded message. -/
theorem flatMap_padBlock {m : List Byte} {n : Nat} (hn : n ≤ blockCount m.length) :
    ((List.range n).flatMap fun j =>
      List.ofFn fun n : Fin 64 => wordByte (padBlock (fun a => m.getD a 0) m.length j)[n.val / 4] (n.val % 4)) =
      (pad m).take (64 * n) := by
  induction n with
  | zero => rfl
  | succ n ih =>
    rw [List.range_succ, List.flatMap_append, List.flatMap_singleton, ih (by omega), ofFn_padBlock hn, Nat.mul_succ,
      List.take_add]

end Sys2Proof.Machine

namespace Sys2Proof.Proofs

open Sys2Proof.Machine

/-- Settles O24: the commands before FINALIZE lead where the block steps of ONE_SHOT lead, and FINALIZE ends without error. -/
theorem blockByBlockEqualsOneShot : Obligations.BlockByBlockEqualsOneShot := by
  intro s hb hc turns
  obtain ⟨u, hrun, hub, hua, hdata⟩ :=
    TurnsLead.blockByBlock hc { s with agenda := turns } (runTurns 0 .finalize) hb rfl rfl
  obtain ⟨v, hrun', hdig, hh, hidx, herr⟩ := run_finalize hub hua
  have huh : u.h = s.hashMessage.h := (congrArg State.h hdata :)
  have huidx : u.blkidx = BitVec.ofNat 32 (blockCount s.len) := (congrArg State.blkidx hdata :)
  refine ⟨_, v, exec_oneShot_of_fits hc, ?run, hdig.trans huh, hh.trans huh, herr, ?index⟩
  case run =>
    rw [List.length_append, run_add hrun]
    exact hrun'
  case index =>
    rw [hidx, huidx, BitVec.toNat_ofNat]
    exact Nat.mod_eq_of_lt (State.blockCount_lt_of_fits hc)

/-- Settles O50: after the engine's turn the write is performed, before it the write is dropped; ONE_SHOT reads no H. -/
theorem hostWriteRacesWithOneShot : Obligations.HostWriteRacesWithOneShot := by
  intro s v hb hp hc
  obtain ⟨t, hengine, htb, hta, htdig, -, htwerr⟩ :=
    step_oneShot (s := { s with agenda := [.engine, .host ⟨.write, .reg, 0x040, 32, v⟩] }) hb hp hc rfl
  obtain ⟨-, -, -, idleWritesH, -⟩ := registerWritesWhileIdle t v [] htb
  obtain ⟨x, hwrite, hx⟩ := idleWritesH 0 hta
  obtain ⟨guardedWrites, -⟩ :=
    writesWhileBusy { s with agenda := [.host ⟨.write, .reg, 0x040, 32, v⟩, .engine] } [.engine] hb
  have hdrop := guardedWrites 0x040 v (by decide) rfl
  obtain ⟨u, hengine', -, -, hudig, huh, huwerr⟩ :=
    step_oneShot (s := { s with agenda := [.engine], werr := true }) hb hp hc rfl
  have hsame : SameMessage { s with agenda := [.engine], werr := true }
      { s with agenda := [.engine, .host ⟨.write, .reg, 0x040, 32, v⟩] } := ⟨rfl, rfl, rfl, fun _ _ => rfl⟩
  obtain ⟨-, -, -, -, -, hdig⟩ := hsame.hashMessage
  exact ⟨_, u, (run_succ hengine 1).trans (run_succ hwrite 0), (run_succ hdrop 1).trans (run_succ hengine' 0),
    htdig.trans (hdig.trans hudig.symm), hx 0, htwerr, huh, huwerr⟩

/-- Settles O26: block by block, by induction on the number of blocks. -/
theorem paddedBlocksConcatenateToThePaddedMessage : Obligations.PaddedBlocksConcatenateToThePaddedMessage := by
  intro m _
  rw [flatMap_padBlock le_rfl, ← pad_length, List.take_length]

end Sys2Proof.Proofs
